-- ==== Sys2Proof/Word.lean ====
section
/-! DEFINITION. The word types of the block: every value is an unsigned integer of a stated width
(00_scope.md R13); addresses are u16, bytes u8 (20_memory.md R50), command words 26 bits (30_encoding.md R82). -/

namespace Sys2Proof

/-- A `u8`: a colour, a bitmap row, a glyph index, a register value (R13, R30, R126). -/
abbrev Byte := BitVec 8

/-- A `u16` address, of graphics memory, of colour memory or of the register space (R50, R52). -/
abbrev Addr := BitVec 16

/-- A 26-bit command word `op[25:24] ++ address[23:8] ++ value[7:0]` (R82). -/
abbrev Cmd := BitVec 26

end Sys2Proof
end

