-- ==== Sys2Proof/Machine/Constants.lean ====
section
/-! DEFINITION. The constants of the block, the whole table of 00_scope.md R10. All are fixed for this hardware.
UNVERIFIED: the spec says its document's literals are unaudited (R3, R11); log 15. -/

namespace Sys2Proof.Machine

/-- `RASTER_LENGTH`: ticks per raster line. -/
@[simp] abbrev rasterLength : Nat := 520
/-- `TOTAL_HEIGHT`: raster lines per frame. -/
@[simp] abbrev totalHeight : Nat := 262
/-- `FRAME_TICKS`. -/
@[simp] abbrev frameTicks : Nat := rasterLength * totalHeight
/-- `LEFT_BORDER_START`. -/
@[simp] abbrev leftBorderStart : Nat := 77
/-- `LEFT_BORDER_WIDTH`. -/
@[simp] abbrev leftBorderWidth : Nat := 47
/-- `DISPLAY_WINDOW_START`: first x of the display window. -/
@[simp] abbrev displayWindowStart : Nat := 124
/-- `DISPLAY_WINDOW_WIDTH`. -/
@[simp] abbrev displayWindowWidth : Nat := 320
/-- `RIGHT_BORDER_START`: first x after the display window. -/
@[simp] abbrev rightBorderStart : Nat := 444
/-- `RIGHT_BORDER_WIDTH`. -/
@[simp] abbrev rightBorderWidth : Nat := 48
/-- `RIGHT_BORDER_END`: first x after the right border. -/
@[simp] abbrev rightBorderEnd : Nat := rightBorderStart + rightBorderWidth
/-- `VISIBLE_PIXEL_WIDTH`. -/
@[simp] abbrev visiblePixelWidth : Nat := 415
/-- `TOP_BORDER_FIRST_LINE`. -/
@[simp] abbrev topBorderFirstLine : Nat := 41
/-- `DISPLAY_WINDOW_FIRST_LINE`. -/
@[simp] abbrev displayWindowFirstLine : Nat := 51
/-- `DISPLAY_WINDOW_HEIGHT`. -/
@[simp] abbrev displayWindowHeight : Nat := 200
/-- `BOTTOM_BORDER_FIRST_LINE`: first line after the display window. -/
@[simp] abbrev bottomBorderFirstLine : Nat := 251
/-- `BLANK_AREA_FIRST_LINE`. -/
@[simp] abbrev blankAreaFirstLine : Nat := 13
/-- `TOP_BORDER_HEIGHT`. -/
@[simp] abbrev topBorderHeight : Nat := displayWindowFirstLine - topBorderFirstLine
/-- `BOTTOM_BORDER_HEIGHT`. -/
@[simp] abbrev bottomBorderHeight : Nat := (totalHeight - bottomBorderFirstLine) + blankAreaFirstLine
/-- `VISIBLE_LINE_COUNT` (R10, 43 R169). -/
@[simp] abbrev visibleLineCount : Nat := topBorderHeight + displayWindowHeight + bottomBorderHeight
/-- `CHAR_MATRIX_BASE`. -/
@[simp] abbrev charMatrixBase : Nat := 0x0400
/-- `CHAR_BITMAP_BASE`. -/
@[simp] abbrev charBitmapBase : Nat := 0x1000
/-- `COLOR_TABLE_BASE`. -/
@[simp] abbrev colorTableBase : Nat := 0xD800
/-- `BORDER_COLOR_ADDR`. -/
@[simp] abbrev borderColorAddr : Addr := 0xD020#16
/-- `BACKGROUND_COLOR_0_ADDR`. -/
@[simp] abbrev backgroundColor0Addr : Addr := 0xD021#16
/-- `COLUMNS`. -/
@[simp] abbrev columns : Nat := 40
/-- `ROWS`. -/
@[simp] abbrev rows : Nat := 25
/-- `MATRIX_SIZE`. -/
@[simp] abbrev matrixSize : Nat := columns * rows
/-- `GLYPH_ROWS`. -/
@[simp] abbrev glyphRows : Nat := 8
/-- `GLYPH_BITS`. -/
@[simp] abbrev glyphBits : Nat := 8
/-- `PIXEL_MASK_MSB`. -/
@[simp] abbrev pixelMaskMsb : Byte := 0x80#8

end Sys2Proof.Machine
end

