-- ==== Sys2Proof/Syntax.lean ====
section
/-! DEFINITION. The operations of the block, one constructor per row of spec/opcode_table.json
(30_encoding.md R80, R81, R86). -/

namespace Sys2Proof

/-- An operation on the block. WRITE is split by its address into three rows (R81). -/
inductive Instr where
  /-- `TICK` (R100): one pixel, one position. -/
  | tick
  /-- `WRITE 0xD020, value` (R151). -/
  | writeBorderColor (value : Byte)
  /-- `WRITE 0xD021, value` (R152). -/
  | writeBackgroundColor0 (value : Byte)
  /-- `WRITE address, value` for every other address (R154). -/
  | writeUnsupported (address : Addr) (value : Byte)
  /-- `READ address` (R153). -/
  | read (address : Addr)
deriving DecidableEq, Repr

end Sys2Proof
end

