-- ==== Sys2Proof/WellFormed.lean ====
section
/-! DEFINITION. Which operations are well formed: the third WRITE row is "any other `cmd[23:8]`"
(42_register_file.md R154; opcode_table.json, constraint of WRITE_UNSUPPORTED). -/

namespace Sys2Proof

/-- An operation that some command word spells. Only `writeUnsupported` has a condition: its address is neither
register's. -/
def Instr.wf : Instr → Bool
  | .tick => true
  | .writeBorderColor _ => true
  | .writeBackgroundColor0 _ => true
  | .writeUnsupported address _ =>
    address != Machine.borderColorAddr && address != Machine.backgroundColor0Addr
  | .read _ => true

end Sys2Proof
end

