-- ==== Sys2Proof/Decode.lean ====
section
/-! DEFINITION. Decoding and encoding of the 26-bit command word (30_encoding.md R82, R83, R86, R88, R89; decision D1). -/

namespace Sys2Proof

/-- Why a command word spells no operation. -/
inductive DecodeError where
  /-- `op = 0b11` is reserved and refused (R83, R88, U7). -/
  | reservedOp
deriving DecidableEq, Repr

/-- What a command word decodes to. -/
inductive Decoded where
  | instr (i : Instr)
  | refused (e : DecodeError)
deriving DecidableEq, Repr

/-- The field `cmd[25:24]` (R82). -/
def opField (w : Cmd) : BitVec 2 := w.extractLsb' 24 2

/-- The field `cmd[23:8]` (R82). -/
def addressField (w : Cmd) : Addr := w.extractLsb' 8 16

/-- The field `cmd[7:0]` (R82). -/
def valueField (w : Cmd) : Byte := w.extractLsb' 0 8

/-- `WRITE(address, value)` as the row its address selects; all 16 bits are compared (R81). -/
def writeInstr (address : Addr) (value : Byte) : Instr :=
  if address = Machine.borderColorAddr then .writeBorderColor value
  else if address = Machine.backgroundColor0Addr then .writeBackgroundColor0 value
  else .writeUnsupported address value

/-- Decoding a command word (R83): total on all 2^26 words, never depending on the state. -/
def decode (w : Cmd) : Decoded :=
  if opField w = 0b00#2 then .instr .tick
  else if opField w = 0b01#2 then .instr (writeInstr (addressField w) (valueField w))
  else if opField w = 0b10#2 then .instr (.read (addressField w))
  else .refused .reservedOp

/-- The word with the given fields, `op` most significant (R82). -/
def cmdWord (op : BitVec 2) (address : Addr) (value : Byte) : Cmd := op ++ address ++ value

/-- The `op` of an operation (R82). -/
def Instr.op : Instr → BitVec 2
  | .tick => 0b00#2
  | .writeBorderColor _ => 0b01#2
  | .writeBackgroundColor0 _ => 0b01#2
  | .writeUnsupported _ _ => 0b01#2
  | .read _ => 0b10#2

/-- The canonical word of an operation: every ignored field is zero (R82). -/
def encode : Instr → Cmd
  | .tick => cmdWord 0b00#2 0 0
  | .writeBorderColor value => cmdWord 0b01#2 Machine.borderColorAddr value
  | .writeBackgroundColor0 value => cmdWord 0b01#2 Machine.backgroundColor0Addr value
  | .writeUnsupported address value => cmdWord 0b01#2 address value
  | .read address => cmdWord 0b10#2 address 0

/-- A word with the fields its operation ignores set to zero (R82, R83): TICK ignores address and value, READ the
value. -/
def canonicalWord (w : Cmd) : Cmd :=
  if opField w = 0b00#2 then 0
  else if opField w = 0b10#2 then cmdWord 0b10#2 (addressField w) 0
  else w

/-- A row of spec/opcode_table.json: its match, its mask and the operation it stands for (R86). -/
structure Row where
  mnemonic : String
  pattern : Cmd
  mask : Cmd
  build : Cmd → Instr

/-- The row matches the word (R86). -/
def Row.hits (r : Row) (w : Cmd) : Bool := w &&& r.mask == r.pattern

/-- The five rows of spec/opcode_table.json in priority order (R86). -/
def opcodeRows : List Row :=
  [ ⟨"TICK", 0x0000000#26, 0x3000000#26, fun _ => .tick⟩,
    ⟨"WRITE_BORDER_COLOR", 0x1D02000#26, 0x3FFFF00#26, fun w => .writeBorderColor (valueField w)⟩,
    ⟨"WRITE_BACKGROUND_COLOR_0", 0x1D02100#26, 0x3FFFF00#26, fun w => .writeBackgroundColor0 (valueField w)⟩,
    ⟨"WRITE_UNSUPPORTED", 0x1000000#26, 0x3000000#26,
      fun w => .writeUnsupported (addressField w) (valueField w)⟩,
    ⟨"READ", 0x2000000#26, 0x3000000#26, fun w => .read (addressField w)⟩ ]

/-- The decoder as R86 words it: try the rows in order and take the first that matches; a word that matches no row
has `op = 0b11`. `decode` follows R83; that the two agree is a statement about this model. -/
def decodeByRows (w : Cmd) : Decoded :=
  match opcodeRows.find? (fun r => r.hits w) with
  | some r => .instr (r.build w)
  | none => .refused .reservedOp

/-- The operation the decoder reads from a table row's bits, bit 0 least significant as in R82. Bits from `nbits`
upwards are 0; a number with a bit above bit 25 is no command word (R89; log 10). -/
def decodeTableWord (nbits w : Nat) : Option Instr :=
  if w % 2 ^ nbits < 2 ^ 26 then
    match decode (BitVec.ofNat 26 (w % 2 ^ nbits)) with
    | .instr i => some i
    | .refused _ => none
  else none

end Sys2Proof
end

