-- ==== Sys2Proof/Config.lean ====
section
/-! DEFINITION. The parameters the spec leaves open (00_scope.md R12). Each is a constant with no body:
no proof can see its value, so every claim holds whatever it is. -/

namespace Sys2Proof

/-- The two documented values of `HOST_ERROR_POLICY` (60_exceptions.md R190). -/
inductive HostErrorPolicy where
  | surface
  | ignore
deriving DecidableEq, Repr, Inhabited

/-- `RESET_BORDER_COLOR`, an open `u8` parameter under no law (R37, R202, decision D5, U2).
DESIGN CHOICE, log 2. -/
opaque Config.resetBorderColor : Byte

/-- `RESET_BACKGROUND_COLOR_0`, an open `u8` parameter under no law (R37, R202, decision D5, U2).
DESIGN CHOICE, log 2. -/
opaque Config.resetBackgroundColor0 : Byte

/-- `HOST_ERROR_POLICY`, an open parameter of the host, outside the block (R190, decision D14, U10);
the block behaves the same under both values. Log 13. -/
opaque Config.hostErrorPolicy : HostErrorPolicy

end Sys2Proof
end

