-- ==== Sys2Proof/Machine/State.lean ====
section
/-! DEFINITION. The state as plain data (10_state.md R20), the inputs and outputs of a step that the spec keeps outside
the block (R36, R50, R18), the reset state (R37), and why a step can stop. -/

namespace Sys2Proof.Machine

/-- The character scan cursor `(graphics_row, graphics_column, character_offset, pixel_mask)` (R24). -/
structure Cursor where
  /-- `graphics_row : u10`, 40 times the character row: 0, 40, ..., 960 (R25). -/
  graphicsRow : BitVec 10
  /-- `graphics_column : u6`, in [0, 40) (R26). -/
  graphicsColumn : BitVec 6
  /-- `character_offset : u3`, in [0, 8) (R27). -/
  characterOffset : BitVec 3
  /-- `pixel_mask : u8`, one-hot (R28). -/
  pixelMask : Byte
deriving DecidableEq, Repr

/-- The record S, the whole state of the block (R20): raster position, scan cursor, register file, pixel output
register. -/
structure Block where
  /-- `x_counter : u10`, in [0, 520): x of the pixel the next TICK produces (R21). -/
  xCounter : BitVec 10
  /-- `raster_counter : u9`, in [0, 262): line of the pixel the next TICK produces (R22). -/
  rasterCounter : BitVec 9
  cursor : Cursor
  /-- `border_color : u8`, written at 0xD020, every byte legal (R30). -/
  borderColor : Byte
  /-- `background_color_0 : u8`, written at 0xD021, every byte legal (R31). -/
  backgroundColor0 : Byte
  /-- `pix_valid : u1`: the most recent TICK produced a pixel (R33, R168). -/
  pixValid : Bool
  /-- `pix_x : u10` (R33). -/
  pixX : BitVec 10
  /-- `pix_line : u9` (R33). -/
  pixLine : BitVec 9
  /-- `pix_color : u8` (R33). -/
  pixColor : Byte
deriving DecidableEq, Repr

/-- A read capability `u16 -> Option u8` (R50) as data: the supported addresses with their bytes, addresses strictly
rising (`Memory.wf`). An unlisted address is unsupported, its read fails (R56; log 3). -/
abbrev Memory := List Host.Cell

/-- The two external memories (R50). -/
inductive Space where
  | graphics
  | color
deriving DecidableEq, Repr

/-- One read the block makes on a capability (R59). -/
structure Access where
  space : Space
  addr : Addr
deriving DecidableEq, Repr

/-- The two error kinds (R180). The value is there for a WRITE, not for a READ (R18). -/
inductive Error where
  | readError (addr : Addr)
  | unsupportedAddress (addr : Addr) (value : Option Byte)
deriving DecidableEq, Repr

/-- The response of an operation (R18). -/
inductive Response where
  | pixel (x : BitVec 10) (rasterLine : BitVec 9) (color : Byte)
  | ok
  | error (e : Error)
deriving DecidableEq, Repr

/-- The input ports of one clock cycle (30_encoding.md R92), `clk` itself being the step. -/
structure PortIn where
  rst : Bool
  tickEn : Bool
  regWe : Bool
  regRe : Bool
  regAddr : Addr
  regWdata : Byte
deriving DecidableEq, Repr

/-- What the outside world can do to the block, one at a time (R8, R64). -/
inductive Event where
  /-- The host applies the operation of a command word (R80, R82). -/
  | command (word : Cmd)
  /-- The host resets (reconstructs) the block (R200). -/
  | reset
  /-- Another party sets the byte a memory returns at an address, between two operations (R62, R91). -/
  | memoryChange (space : Space) (addr : Addr) (value : Byte)
  /-- One clock cycle of the port-level interface (R92, R93). -/
  | clock (ports : PortIn)
deriving DecidableEq, Repr

/-- The machine's state: the block's record S, and what a step takes in and gives out. -/
structure State where
  /-- The record S (R20). -/
  block : Block
  /-- Graphics memory `G`, an input of each TICK (R36, R50). The model's own field, log 3. -/
  g : Memory
  /-- Colour memory `C`, an input of each TICK (R36, R50). The model's own field, log 3. -/
  c : Memory
  /-- What the outside world does next, first one first (R8, R9, R62). The model's own field, log 5. -/
  pending : List Event
  /-- The responses the last step returned, in order (R18, R80, R93). The model's own field, log 6. -/
  responses : List Response
  /-- The reads the last step made, in order (R59). The model's own field, log 6. -/
  reads : List Access
deriving DecidableEq, Repr

/-- Why the machine stops with a fault: never. Both error kinds of the block are responses, non-fatal
(60_exceptions.md R180, R186; 42 R156), and it has no halt (R9), so this type has no constructor. -/
inductive Fault where
deriving DecidableEq, Repr

/-- Why a step has no meaning. -/
inductive Refusal where
  /-- Raised by an arm of `exec` that has no meaning yet, by its mnemonic; no arm is so now. Safe. -/
  | notModelled (mnemonic : String)
  /-- Raised by `step` on a command word with `op = 0b11`: the decoder refuses it (R83, R88, U7). Safe. -/
  | reservedCommand (word : Cmd)
  /-- Raised by TICK in a state outside the legal ranges of R38, which no run reaches and for which the spec gives
  the step function no meaning (U5, D11; log 7). Safe. -/
  | illegalState
  /-- Raised by a clock cycle with `reg_we` and `reg_re` both 1: "a model refuses it" (R93, U8). Safe. -/
  | writeWithRead
  /-- Raised by a memory change at an address the memory does not support: the set of supported addresses is fixed
  (R56; log 4). Safe. -/
  | unsupportedMemoryChange (space : Space) (addr : Addr)
deriving DecidableEq, Repr

/-- The origin of the cursor, `(0, 0, 0, 0x80)` (R19). -/
def Cursor.origin : Cursor := ⟨0, 0, 0, pixelMaskMsb⟩

/-- The block after reset, with the two open parameters as arguments (R37, R202). -/
def Block.resetWith (border background : Byte) : Block where
  xCounter := 0
  rasterCounter := 0
  cursor := Cursor.origin
  borderColor := border
  backgroundColor0 := background
  pixValid := false
  pixX := 0
  pixLine := 0
  pixColor := 0x00#8

/-- The block after reset (R37): the colour registers hold the open parameters of `Config`. -/
def Block.reset : Block := Block.resetWith Config.resetBorderColor Config.resetBackgroundColor0

/-- The machine right after reset, with nothing bound and nothing pending (R37; logs 2, 3, 5, 6). -/
def State.reset : State where
  block := Block.reset
  g := []
  c := []
  pending := []
  responses := []
  reads := []

/-- The machine constructed by a host that has bound the two memories and will do `events` (R9, R200, R204). -/
def State.construct (g c : Memory) (events : List Event) : State :=
  { State.reset with g := g, c := c, pending := events }

end Sys2Proof.Machine
end

