-- ==== Sys2Proof/Machine/Operands.lean ====
section
/-! DEFINITION. Operand forms: the rotation of the pixel mask (00_scope.md R17), the one-hot masks (10_state.md R28), the
three effective addresses of a window TICK (30_encoding.md R85) and the cursor as one counter (R29). -/

namespace Sys2Proof.Machine

/-- `rotr8(m) = (m[0] ++ m[7:1])` (R17). -/
def rotr8 (m : Byte) : Byte := m.extractLsb' 0 1 ++ m.extractLsb' 1 7

/-- The eight one-hot bytes in the order the mask takes them (R20, R28). -/
def oneHotMasks : List Byte :=
  [0x80#8, 0x40#8, 0x20#8, 0x10#8, 0x08#8, 0x04#8, 0x02#8, 0x01#8]

/-- The bit position `p`, counted from the left, that a mask selects: `pixel_mask = 0x80 >> p` (R28). -/
def maskPosition (m : Byte) : Nat := oneHotMasks.idxOf m

/-- The mask `0x80 >> p` (R28). -/
def maskAt (p : Nat) : Byte := pixelMaskMsb >>> p

/-- The cell offset `graphics_row + graphics_column` (R25). -/
def Cursor.cell (k : Cursor) : Nat := k.graphicsRow.toNat + k.graphicsColumn.toNat

/-- `0x0400 + graphics_row + graphics_column` (R121). -/
def Cursor.matrixAddr (k : Cursor) : Addr := BitVec.ofNat 16 (charMatrixBase + k.cell)

/-- `0x1000 + 8*character_index + character_offset`, the index zero-extended (R122, R132). -/
def Cursor.bitmapAddr (k : Cursor) (characterIndex : Byte) : Addr :=
  BitVec.ofNat 16 (charBitmapBase + glyphRows * characterIndex.toNat + k.characterOffset.toNat)

/-- `0xD800 + graphics_row + graphics_column` (R125). -/
def Cursor.colorAddr (k : Cursor) : Addr := BitVec.ofNat 16 (colorTableBase + k.cell)

/-- The linear index `k = p + 8*graphics_column + 320*character_offset + 2560*(graphics_row div 40)` (R29). -/
def Cursor.index (k : Cursor) : Nat :=
  maskPosition k.pixelMask + 8 * k.graphicsColumn.toNat + 320 * k.characterOffset.toNat
    + 2560 * (k.graphicsRow.toNat / 40)

/-- The number of states of the cursor, 8 * 40 * 8 * 25 (R29). -/
@[simp] abbrev cursorStates : Nat := glyphBits * columns * glyphRows * rows

/-- The fields recovered from a linear index (R29). -/
def Cursor.ofIndex (k : Nat) : Cursor where
  graphicsRow := BitVec.ofNat 10 (40 * ((k / 2560) % 25))
  graphicsColumn := BitVec.ofNat 6 ((k / 8) % 40)
  characterOffset := BitVec.ofNat 3 ((k / 320) % 8)
  pixelMask := maskAt (k % 8)

/-- The raster position as one number, `n = raster_counter * 520 + x_counter` (R23). -/
def Block.position (b : Block) : Nat := b.rasterCounter.toNat * rasterLength + b.xCounter.toNat

/-- How many display-window positions precede `(line, x)` in the frame: the `w` of R39. -/
def windowTicksBefore (line x : Nat) : Nat :=
  if line < displayWindowFirstLine then 0
  else if line < bottomBorderFirstLine then
    displayWindowWidth * (line - displayWindowFirstLine) + min (x - displayWindowStart) displayWindowWidth
  else displayWindowWidth * displayWindowHeight

/-- The cursor that R39 gives for the block's raster position. -/
def Block.lockStepCursor (b : Block) : Cursor :=
  Cursor.ofIndex (windowTicksBefore b.rasterCounter.toNat b.xCounter.toNat % cursorStates)

end Sys2Proof.Machine
end

