-- ==== Sys2Proof/Machine/Flags.lean ====
section
/-! DEFINITION. The predicates the rules test: combinational functions of the state and of bytes just read, never
stored (10_state.md R34), and the legal ranges of the state (R20, R38). -/

namespace Sys2Proof.Machine

/-- `in_display_lines`: `51 <= raster_counter < 251` (R34). -/
def Block.inDisplayLines (b : Block) : Bool :=
  decide (displayWindowFirstLine ≤ b.rasterCounter.toNat ∧ b.rasterCounter.toNat < bottomBorderFirstLine)

/-- `in_display_x`: `124 <= x_counter < 444` (R34). -/
def Block.inDisplayX (b : Block) : Bool :=
  decide (displayWindowStart ≤ b.xCounter.toNat ∧ b.xCounter.toNat < rightBorderStart)

/-- `in_window` (R34, R101). -/
def Block.inWindow (b : Block) : Bool := b.inDisplayLines && b.inDisplayX

/-- `is_foreground`: `(bitmap_row & pixel_mask) != 0` (R34, R124). -/
def isForeground (bitmapRow pixelMask : Byte) : Bool := bitmapRow &&& pixelMask != 0#8

/-- `mask_wrapped`: `rotr8(pixel_mask) = 0x80` (R34, R128). -/
def maskWrapped (pixelMask : Byte) : Bool := rotr8 pixelMask == pixelMaskMsb

/-- `line_end`: `x_counter = 519` (R34). -/
def Block.lineEnd (b : Block) : Bool := b.xCounter.toNat == rasterLength - 1

/-- `frame_end`: `line_end and raster_counter = 261` (R34). -/
def Block.frameEnd (b : Block) : Bool := b.lineEnd && b.rasterCounter.toNat == totalHeight - 1

/-- The mask has exactly one bit set (R28). -/
abbrev OneHot (m : Byte) : Prop := m ∈ oneHotMasks

/-- The legal ranges of the cursor (R20, R38); `character_offset < 8` is its width. -/
abbrev Cursor.Legal (k : Cursor) : Prop :=
  k.graphicsRow.toNat % 40 = 0 ∧ k.graphicsRow.toNat < matrixSize ∧ k.graphicsColumn.toNat < columns ∧
    k.characterOffset.toNat < glyphRows ∧ OneHot k.pixelMask

/-- The range invariant R38: the legal ranges of the position and the cursor. -/
abbrev Block.Legal (b : Block) : Prop :=
  b.xCounter.toNat < rasterLength ∧ b.rasterCounter.toNat < totalHeight ∧ b.cursor.Legal

/-- The legal ranges of the pixel output register's position (R20). -/
abbrev Block.PixelLegal (b : Block) : Prop :=
  b.pixX.toNat < rasterLength ∧ b.pixLine.toNat < totalHeight

/-- The register file has a register at this address: exactly two (R32, R150). -/
def supportedRegister (address : Addr) : Bool :=
  address == borderColorAddr || address == backgroundColor0Addr

end Sys2Proof.Machine
end

