-- ==== Sys2Proof/Machine/Ops.lean ====
section
/-! DEFINITION. The named operations over memory and registers: the read capabilities (20_memory.md R50, R56), the register
file (42_register_file.md R150), the pixel output register (43 R166, R167), the position counters (40 R105), the responses
and the raising of an error (00 R16, 60 R185). There is no return from an error: nothing is saved (R187). -/

namespace Sys2Proof.Machine

/-! ### Memory -/

/-- The canonical form of a memory: addresses strictly rising, each a `u16`. An unlisted address reads as nothing, so
no entry equals what an unlisted address reads as. -/
abbrev Memory.wf (m : Memory) : Prop :=
  List.Pairwise (fun p q : Host.Cell => p.1 < q.1) m ∧ ∀ p ∈ m, p.1 < 2 ^ 16

/-- The capability's answer at an address: its byte, or `none`, a failure, where it is unsupported (R50, R56). -/
def Memory.read : Memory → Addr → Option Byte
  | [], _ => none
  | cell :: rest, a => if cell.1 = a.toNat then some cell.2 else Memory.read rest a

/-- The capability supports the address (R56). -/
def Memory.supports (m : Memory) (a : Addr) : Bool := (m.read a).isSome

/-- Another party changes the byte at a supported address (R62); an unsupported address stays so (R56). -/
def Memory.change : Memory → Addr → Byte → Memory
  | [], _, _ => []
  | cell :: rest, a, v =>
    if cell.1 = a.toNat then (cell.1, v) :: rest else cell :: Memory.change rest a v

/-- Setting up a memory before the first operation (R91, R204): the address is supported with this byte. -/
def Memory.insert : Memory → Addr → Byte → Memory
  | [], a, v => [(a.toNat, v)]
  | cell :: rest, a, v =>
    if a.toNat < cell.1 then (a.toNat, v) :: cell :: rest
    else if cell.1 = a.toNat then (a.toNat, v) :: rest
    else cell :: Memory.insert rest a v

/-- Setting up a memory before the first operation (R91): the address is unsupported. -/
def Memory.erase : Memory → Addr → Memory
  | [], _ => []
  | cell :: rest, a => if cell.1 = a.toNat then rest else cell :: Memory.erase rest a

/-- The capability of a space (R51). -/
def State.memory (s : State) : Space → Memory
  | .graphics => s.g
  | .color => s.c

/-- The state with another memory in one space. -/
def State.setMemory (s : State) (space : Space) (m : Memory) : State :=
  match space with
  | .graphics => { s with g := m }
  | .color => { s with c := m }

/-! ### A read of a capability, its failure and the record of it -/

/-- The outcome of the reads of a window TICK: a value, or the address of the read that failed (R15, R183), and the
reads made so far in order (R59). -/
inductive ReadResult (α : Type) where
  | value (v : α) (reads : List Access)
  | failed (addr : Addr) (reads : List Access)
deriving DecidableEq, Repr

/-- `MemRead(addr)` on a space: one byte, or the failure that stops the operation (R15). -/
def memRead (space : Space) (m : Memory) (a : Addr) : ReadResult Byte :=
  match m.read a with
  | some v => .value v [⟨space, a⟩]
  | none => .failed a [⟨space, a⟩]

/-- Go on with a value that was read; a failure stops, and no later read is made (R59). -/
def ReadResult.andThen {α β : Type} (r : ReadResult α) (f : α → ReadResult β) : ReadResult β :=
  match r with
  | .failed a log => .failed a log
  | .value v log =>
    match f v with
    | .value w more => .value w (log ++ more)
    | .failed a more => .failed a (log ++ more)

/-! ### Responses and errors -/

/-- Nothing was done: no response, no read. -/
def State.quiet (s : State) : State := { s with responses := [], reads := [] }

/-- An operation's one response (R18) and the reads it made. -/
def State.respond (s : State) (r : Response) (reads : List Access) : State :=
  { s with responses := [r], reads := reads }

/-- Raising an error (R16, R185): the operation ends with that response; nothing is saved, no mode changes, control
goes nowhere. -/
def State.raise (s : State) (e : Error) (reads : List Access) : State := s.respond (.error e) reads

/-- `resp_kind`: 0 `Ok`, 1 `Pixel`, 2 `ReadError`, 3 `UnsupportedAddress` (R90, decision D9). -/
def Response.kind : Response → BitVec 2
  | .ok => 0
  | .pixel _ _ _ => 1
  | .error (.readError _) => 2
  | .error (.unsupportedAddress _ _) => 3

/-! ### The raster position -/

/-- `x_counter` after the advance: 519 goes to 0 (R105). -/
def Block.nextX (b : Block) : BitVec 10 := if b.lineEnd then 0#10 else b.xCounter + 1#10

/-- `raster_counter` after the advance: it steps at the end of a line, and 261 goes to 0 (R105). -/
def Block.nextLine (b : Block) : BitVec 9 :=
  if b.frameEnd then 0#9 else if b.lineEnd then b.rasterCounter + 1#9 else b.rasterCounter

/-- The advance by one position (R105). -/
def Block.advance (b : Block) : Block := { b with xCounter := b.nextX, rasterCounter := b.nextLine }

/-! ### The pixel output register -/

/-- Load on a successful TICK (R166). -/
def Block.loadPixel (b : Block) (x : BitVec 10) (line : BitVec 9) (color : Byte) : Block :=
  { b with pixValid := true, pixX := x, pixLine := line, pixColor := color }

/-- On a failed TICK `pix_valid <- 0` and the other fields keep their values (R167). -/
def Block.dropPixel (b : Block) : Block := { b with pixValid := false }

/-! ### The register file -/

/-- The register contents after `WRITE(address, value)`, stored verbatim; unchanged where no register is (R150). -/
def Block.storeRegister (b : Block) (address : Addr) (value : Byte) : Block :=
  if address = borderColorAddr then { b with borderColor := value }
  else if address = backgroundColor0Addr then { b with backgroundColor0 := value }
  else b

/-- `WRITE(address, value)` (R150, R151, R152, R154). -/
def State.writeRegister (s : State) (address : Addr) (value : Byte) : State :=
  if supportedRegister address then
    { s with block := s.block.storeRegister address value }.respond .ok []
  else s.raise (.unsupportedAddress address (some value)) []

/-- `READ(address)` fails for every address (R150, R153). -/
def State.readRegister (s : State) (address : Addr) : State :=
  s.raise (.unsupportedAddress address none) []

/-! ### Reset -/

/-- Applying reset (R200): every field of S at its reset value, no response, no pixel; the memories are not touched
(R201), and what the outside world does next is not the block's. -/
def State.applyReset (s : State) : State := { s with block := Block.reset }.quiet

end Sys2Proof.Machine
end

