-- ==== Sys2Proof/Machine/RegisterFile.lean ====
section
/-! DEFINITION. WRITE and READ (42_register_file.md R150 to R156). -/

namespace Sys2Proof.Machine

/-- WRITE_BORDER_COLOR: `WRITE(0xD020, value)` (R151). -/
def execWriteBorderColor (value : Byte) (s : State) : Host.Outcome State Fault Refusal :=
  .next (s.writeRegister borderColorAddr value)

/-- WRITE_BACKGROUND_COLOR_0: `WRITE(0xD021, value)` (R152). -/
def execWriteBackgroundColor0 (value : Byte) (s : State) : Host.Outcome State Fault Refusal :=
  .next (s.writeRegister backgroundColor0Addr value)

/-- WRITE_UNSUPPORTED: `WRITE(address, value)` with any other address (R154). The three WRITE rows are one operation,
so an ill-formed term with a register's address writes that register (log 12). -/
def execWriteUnsupported (address : Addr) (value : Byte) (s : State) : Host.Outcome State Fault Refusal :=
  .next (s.writeRegister address value)

/-- READ (R153). -/
def execRead (address : Addr) (s : State) : Host.Outcome State Fault Refusal :=
  .next (s.readRegister address)

end Sys2Proof.Machine
end

