-- ==== Sys2Proof/Machine/Resolver.lean ====
section
/-! DEFINITION. The character-mode pixel resolver, the glyph bitmap fetcher, the colour mux and the cursor carry chain
(41_character_pixel_resolver.md R120 to R132). -/

namespace Sys2Proof.Machine

/-- The glyph bitmap fetcher (R121 to R123): the matrix fetch, then the bitmap fetch that depends on it. -/
def fetchBitmapRow (k : Cursor) (g : Memory) : ReadResult Byte :=
  (memRead .graphics g k.matrixAddr).andThen fun characterIndex =>
    memRead .graphics g (k.bitmapAddr characterIndex)

/-- The colour of a window pixel (R124 to R126): the cell's byte of colour memory if the bit is set, else
`background_color_0`, and then colour memory is not read. -/
def windowColor (b : Block) (c : Memory) (bitmapRow : Byte) : ReadResult Byte :=
  if isForeground bitmapRow b.cursor.pixelMask then memRead .color c b.cursor.colorAddr
  else .value b.backgroundColor0 []

/-- `graphics_row' = (graphics_row + 40) mod 1000` (R129). -/
def nextRow (row : BitVec 10) : BitVec 10 := BitVec.ofNat 10 ((row.toNat + columns) % matrixSize)

/-- The sub-row and row step (R129). -/
def Cursor.subRowStep (k : Cursor) : Cursor :=
  if k.characterOffset.toNat < glyphRows - 1 then { k with characterOffset := k.characterOffset + 1#3 }
  else { k with characterOffset := 0#3, graphicsRow := nextRow k.graphicsRow }

/-- The column step (R128). -/
def Cursor.columnStep (k : Cursor) : Cursor :=
  if k.graphicsColumn.toNat < columns - 1 then { k with graphicsColumn := k.graphicsColumn + 1#6 }
  else Cursor.subRowStep { k with graphicsColumn := 0#6 }

/-- One cursor step: the bit step, and the carries in their order (R127 to R130). -/
def Cursor.step (k : Cursor) : Cursor :=
  if maskWrapped k.pixelMask then Cursor.columnStep { k with pixelMask := rotr8 k.pixelMask }
  else { k with pixelMask := rotr8 k.pixelMask }

/-- RESOLVE (R120): one pixel's colour and the next cursor, or the address of the read that failed. -/
def resolve (b : Block) (g c : Memory) : ReadResult (Byte × Cursor) :=
  (fetchBitmapRow b.cursor g).andThen fun bitmapRow =>
    (windowColor b c bitmapRow).andThen fun color => .value (color, b.cursor.step) []

end Sys2Proof.Machine
end

