-- ==== Sys2Proof/Machine/Tick.lean ====
section
/-! DEFINITION. TICK (40_raster_timing.md R100 to R106). -/

namespace Sys2Proof.Machine

/-- The colour mux at the top and the cursor of the TICK (R102, R103): the resolver if and only if the position is in
the display window, else `border_color`, no read and the cursor unchanged. -/
def tickColor (b : Block) (g c : Memory) : ReadResult (Byte × Cursor) :=
  if b.inWindow then resolve b g c else .value (b.borderColor, b.cursor) []

/-- The commit of a successful TICK (R100): the pixel of the pre-advance position is loaded, the position advances, the
cursor is the one given. -/
def Block.commitPixel (b : Block) (color : Byte) (cursor' : Cursor) : Block :=
  { (b.loadPixel b.xCounter b.rasterCounter color).advance with cursor := cursor' }

/-- The state after a TICK with this colour result: one pixel (R104), or `ReadError(addr)` and nothing changed but
`pix_valid <- 0` (R106, R185; decision D4, log 1). -/
def State.tickWith (s : State) : ReadResult (Byte × Cursor) → State
  | .value (color, cursor') reads =>
    { s with block := s.block.commitPixel color cursor' }.respond
      (.pixel s.block.xCounter s.block.rasterCounter color) reads
  | .failed addr reads => { s with block := s.block.dropPixel }.raise (.readError addr) reads

/-- TICK (R100). A state outside the legal ranges of R38 is refused: "give the step function no meaning there" (U5,
decision D11; log 7). -/
def execTick (s : State) : Host.Outcome State Fault Refusal :=
  if s.block.Legal then .next (s.tickWith (tickColor s.block s.g s.c)) else .refused .illegalState

end Sys2Proof.Machine
end

