-- ==== Sys2Proof/Machine/Dispatch.lean ====
section
/-! DEFINITION. The dispatch: one arm per operation. -/

namespace Sys2Proof.Machine

open Sys2Proof

/-- One operation applied to the block (30_encoding.md R80). -/
def exec (i : Instr) (s : State) : Host.Outcome State Fault Refusal :=
  match i with
  | .tick => Sys2Proof.Machine.execTick s
  | .writeBorderColor value => Sys2Proof.Machine.execWriteBorderColor value s
  | .writeBackgroundColor0 value => Sys2Proof.Machine.execWriteBackgroundColor0 value s
  | .writeUnsupported address value => Sys2Proof.Machine.execWriteUnsupported address value s
  | .read address => Sys2Proof.Machine.execRead address s

end Sys2Proof.Machine
end

