-- ==== Sys2Proof/Machine/Clock.lean ====
section
/-! DEFINITION. The port-level interface: one clock cycle as a short operation sequence, and the combinational outputs
(30_encoding.md R92 to R94; 60_exceptions.md R184; 70 R200; decisions D6, D7, D8). -/

namespace Sys2Proof.Machine

/-- The TICK of a cycle, if `tick_en` is 1 (R93). -/
def tickPhase (p : PortIn) (s : State) : Host.Outcome State Fault Refusal :=
  if p.tickEn then exec .tick s else .next s.quiet

/-- A second operation of the same cycle: its responses and reads come after those of the first (R93, R184). -/
def afterPhase (t : State) : Host.Outcome State Fault Refusal → Host.Outcome State Fault Refusal
  | .next u => .next { u with responses := t.responses ++ u.responses, reads := t.reads ++ u.reads }
  | .fault f => .fault f
  | .refused r => .refused r

/-- The WRITE or READ of a cycle, if strobed (R93). -/
def registerPhase (p : PortIn) (t : State) : Host.Outcome State Fault Refusal :=
  if p.regWe then afterPhase t (exec (writeInstr p.regAddr p.regWdata) t)
  else if p.regRe then afterPhase t (exec (.read p.regAddr) t)
  else .next t

/-- One rising edge (R93): `rst` overrides everything (R200); `reg_we` with `reg_re` is refused; else TICK if `tick_en`,
then WRITE or READ if strobed. With no strobe at all the state holds. -/
def clockCycle (p : PortIn) (s : State) : Host.Outcome State Fault Refusal :=
  if p.rst then .next s.applyReset
  else if p.regWe && p.regRe then .refused .writeWithRead
  else
    match tickPhase p s with
    | .next t => registerPhase p t
    | .fault f => .fault f
    | .refused r => .refused r

/-- The combinational outputs of a cycle (R92). A read port is `some address` when its `*_re` is 1 and `none` when it is
0, since the address means nothing then (log 9); `tick_err_addr` is valid when `tick_err` is 1. The registered
outputs `pix_*` are fields of `Block`. -/
structure PortOut where
  regErr : Bool
  cm : Option Addr
  bm : Option Addr
  col : Option Addr
  tickErr : Option Addr
deriving DecidableEq, Repr

/-- `reg_err`: this cycle's WRITE or READ fails (R92). DESIGN CHOICE, log 19: the spec gives no value in the forbidden
cycle with `reg_we` and `reg_re` both 1, which `clockCycle` refuses (R93); here `reg_err` is 1 in it. -/
def regErr (p : PortIn) : Bool := (p.regWe && !supportedRegister p.regAddr) || p.regRe

/-- The matrix port: `cm_re = tick_en and in_window` (R94). -/
def cmPort (p : PortIn) (b : Block) : Option Addr :=
  if p.tickEn && b.inWindow then some b.cursor.matrixAddr else none

/-- The bitmap port: `bm_re = cm_re and not cm_fail` (R94); the address depends on the matrix byte. -/
def bmPort (p : PortIn) (b : Block) (g : Memory) : Option Addr :=
  match cmPort p b with
  | some a => (g.read a).map b.cursor.bitmapAddr
  | none => none

/-- The colour port: `col_re = bm_re and not bm_fail and is_foreground` (R94). -/
def colPort (p : PortIn) (b : Block) (g : Memory) : Option Addr :=
  match bmPort p b g with
  | some a =>
    match g.read a with
    | some bitmapRow => if isForeground bitmapRow b.cursor.pixelMask then some b.cursor.colorAddr else none
    | none => none
  | none => none

/-- A port's failure: its `*_re` is 1 and the memory does not support the address (R94). -/
def portFail (m : Memory) : Option Addr → Option Addr
  | some a => if m.supports a then none else some a
  | none => none

/-- The combinational outputs (R92, R94): `tick_err_addr` is the address of the port that fails; at most one does.
While `rst` is 1 the strobes are ignored (R200), so no output is raised (log 9). In the forbidden cycle with `reg_we` and
`reg_re` both 1 the outputs are computed as in any other (log 19). DESIGN CHOICE, log 20: in a state outside the legal
ranges the spec defines no output (R38, U5); here the formulas of R94 are applied to it all the same, while a TICK in
it is refused. -/
def portOut (p : PortIn) (s : State) : PortOut :=
  if p.rst then ⟨false, none, none, none, none⟩
  else
    { regErr := regErr p
      cm := cmPort p s.block
      bm := bmPort p s.block s.g
      col := colPort p s.block s.g
      tickErr :=
        ((portFail s.g (cmPort p s.block)).or (portFail s.g (bmPort p s.block s.g))).or
          (portFail s.c (colPort p s.block s.g)) }

end Sys2Proof.Machine
end

