-- ==== Sys2Proof/Machine/Events.lean ====
section
/-! DEFINITION. What one event of the outside world does (00_scope.md R8; 20_memory.md R62; 30_encoding.md R83, R88;
70_reset_and_hazards.md R200). -/

namespace Sys2Proof.Machine

/-- Another party changes a byte between two operations (R62). Only a supported address can change (R56); a change
elsewhere is refused by name (log 4). -/
def changeMemory (space : Space) (a : Addr) (v : Byte) (s : State) : Host.Outcome State Fault Refusal :=
  if (s.memory space).supports a then
    .next (s.setMemory space ((s.memory space).change a v)).quiet
  else .refused (.unsupportedMemoryChange space a)

/-- The host applies a command word: the decoder reads it, and the block does the operation; a reserved word is refused
and the block is given nothing to do (R83, R88). -/
def runCommand (w : Cmd) (s : State) : Host.Outcome State Fault Refusal :=
  match decode w with
  | .instr i => exec i s
  | .refused .reservedOp => .refused (.reservedCommand w)

/-- One event. -/
def runEvent (e : Event) (s : State) : Host.Outcome State Fault Refusal :=
  match e with
  | .command w => runCommand w s
  | .reset => .next s.applyReset
  | .memoryChange space a v => changeMemory space a v s
  | .clock p => clockCycle p s

/-- Presenting a table row's word as the next thing the host does; a number that is no 26-bit word presents nothing
(R89; log 10). -/
def presentWord (nbits w : Nat) (pending : List Event) : List Event :=
  if w % 2 ^ nbits < 2 ^ 26 then .command (BitVec.ofNat 26 (w % 2 ^ nbits)) :: pending else pending

/-- Taking the next event: with none the block does nothing and keeps all its state (R8, R193; log 5). -/
def takeNext (s : State) : Host.Outcome State Fault Refusal :=
  match s.pending with
  | [] => .next s.quiet
  | e :: rest => runEvent e { s with pending := rest }

end Sys2Proof.Machine
end

