-- ==== Sys2Proof/Machine/Step.lean ====
section
/-! DEFINITION. One step of the machine: the next event of the outside world (00_scope.md R8, R9). -/

namespace Sys2Proof.Machine

/-- One step (R8): the host's next operation, reset, memory change or clock cycle. -/
def step (s : State) : Host.Outcome State Fault Refusal := takeNext s

/-- `s` with the operation of a table row's word presented first, so that the very next step runs it (log 5). -/
def State.withFetchWord (s : State) (nbits w : Nat) : State :=
  { s with pending := presentWord nbits w s.pending }

end Sys2Proof.Machine
end

