-- ==== Sys2Proof/Machine/Geometry.lean ====
section
/-! DEFINITION. What the block exposes to the consumer of pixels: the pixel stream, the coordinate conversion SCREEN_Y, the
visible area and the regions of the raster (43_pixel_output_and_geometry.md R165 to R172; 40 R108). Pure functions: none is
used by the block itself (R101, R171). -/

namespace Sys2Proof.Machine

/-- `SCREEN_Y(raster_line) = (raster_line + TOTAL_HEIGHT - TOP_BORDER_FIRST_LINE) mod TOTAL_HEIGHT` on [0, 262) (R171);
no result outside that domain (decision D18, U6; log 11). -/
def screenY (rasterLine : Nat) : Option Nat :=
  if rasterLine < totalHeight then some ((rasterLine + totalHeight - topBorderFirstLine) % totalHeight)
  else none

/-- A line is visible when `SCREEN_Y(raster_line) < 234` (R170). -/
def visibleLine (rasterLine : Nat) : Bool :=
  match screenY rasterLine with
  | some y => decide (y < visibleLineCount)
  | none => false

/-- A pixel is visible when `77 <= x < 492` and its line is visible (R170). -/
def visible (x rasterLine : Nat) : Bool :=
  decide (leftBorderStart ≤ x ∧ x < rightBorderEnd) && visibleLine rasterLine

/-- The place on the screen of a visible pixel: column `x - 77`, row `SCREEN_Y(raster_line)` (R170). -/
def screenPlace (x rasterLine : Nat) : Option (Nat × Nat) :=
  if visible x rasterLine then (screenY rasterLine).map fun y => (x - leftBorderStart, y) else none

/-- The horizontal regions of the raster (R108). -/
inductive HorizontalRegion where
  | blanking
  | leftBorder
  | displayWindow
  | rightBorder
deriving DecidableEq, Repr

/-- The vertical regions of the raster (R108). -/
inductive VerticalRegion where
  | blankArea
  | topBorder
  | displayWindow
  | bottomBorder
deriving DecidableEq, Repr

/-- The horizontal region of a raster position, for the consumer's information (R108). -/
def horizontalRegion (x : Nat) : Option HorizontalRegion :=
  if x < leftBorderStart then some .blanking
  else if x < displayWindowStart then some .leftBorder
  else if x < rightBorderStart then some .displayWindow
  else if x < rightBorderEnd then some .rightBorder
  else if x < rasterLength then some .blanking
  else none

/-- The vertical region of a raster line, for the consumer's information; the bottom border wraps around the frame
boundary (R108). -/
def verticalRegion (line : Nat) : Option VerticalRegion :=
  if line < blankAreaFirstLine then some .bottomBorder
  else if line < topBorderFirstLine then some .blankArea
  else if line < displayWindowFirstLine then some .topBorder
  else if line < bottomBorderFirstLine then some .displayWindow
  else if line < totalHeight then some .bottomBorder
  else none

/-- What a consumer may take from the pixel output register: nothing while `pix_valid` is 0 (R167, U9). -/
def Block.pixel (b : Block) : Option (BitVec 10 × BitVec 9 × Byte) :=
  if b.pixValid then some (b.pixX, b.pixLine, b.pixColor) else none

/-- The pixels of a list of responses: the pixel stream (R165, R168). -/
def pixelStream (rs : List Response) : List (BitVec 10 × BitVec 9 × Byte) :=
  rs.filterMap fun r =>
    match r with
    | .pixel x line color => some (x, line, color)
    | .ok => none
    | .error _ => none

end Sys2Proof.Machine
end

