-- ==== Sys2Proof/Machine/HostPolicy.lean ====
section
/-! DEFINITION. What the host does with an error, outside the block (60_exceptions.md R190; decision D14, U10; log 13). -/

namespace Sys2Proof.Machine

/-- The host surfaces the response: under `surface` every error; under `ignore` an unsupported address is a no-op, while
a `ReadError` is still halted on and reported, since ignoring is spoken of for unsupported addresses only (R190). -/
def surfaces : HostErrorPolicy → Response → Bool
  | _, .pixel _ _ _ => false
  | _, .ok => false
  | _, .error (.readError _) => true
  | .surface, .error (.unsupportedAddress _ _) => true
  | .ignore, .error (.unsupportedAddress _ _) => false

/-- The responses of a step that this host surfaces (R190). -/
def surfaced (s : State) : List Response := s.responses.filter (surfaces Config.hostErrorPolicy)

end Sys2Proof.Machine
end

