-- ==== Sys2Proof/Machine/Program.lean ====
section
/-! DEFINITION. The textual syntax of operations and test programs (30_encoding.md R91, decision D12; log 14), and the
loading of a program as the host's pending events. -/

namespace Sys2Proof.Machine

/-- A line of a program (R91). -/
inductive Line where
  /-- `TICK n`; `TICK` alone is `TICK 1`. -/
  | tick (count : Nat)
  /-- `WRITE address, value`. -/
  | write (address : Addr) (value : Byte)
  /-- `READ address`. -/
  | read (address : Addr)
  /-- The directive `RESET`. -/
  | reset
  /-- `G[a] = v` or `C[a] = v`. -/
  | setByte (space : Space) (addr : Addr) (value : Byte)
  /-- `G[a] = fail` or `C[a] = fail`. -/
  | setFail (space : Space) (addr : Addr)
deriving DecidableEq, Repr

/-! ### Loading a program -/

/-- The events appended to what the outside world does. -/
def State.push (s : State) (events : List Event) : State := { s with pending := s.pending ++ events }

/-- Loading the lines. `started` says that an operation has stood already: from then on a memory line is an event, and
`= fail` is not allowed. `failed` holds the addresses made unsupported for the whole program (R91, R56). -/
def loadLines : List Line → Bool → List Access → State → Option State
  | [], _, _, s => some s
  | .setFail space a :: rest, started, failed, s =>
    if started then none
    else loadLines rest started (⟨space, a⟩ :: failed) (s.setMemory space ((s.memory space).erase a))
  | .setByte space a v :: rest, started, failed, s =>
    if ⟨space, a⟩ ∈ failed then none
    else if started then loadLines rest started failed (s.push [.memoryChange space a v])
    else loadLines rest started failed (s.setMemory space ((s.memory space).insert a v))
  | .reset :: rest, started, failed, s => loadLines rest started failed (s.push [.reset])
  | .tick n :: rest, _, failed, s =>
    if n = 0 then none
    else loadLines rest true failed (s.push (List.replicate n (.command (encode .tick))))
  | .write a v :: rest, _, failed, s =>
    loadLines rest true failed (s.push [.command (encode (writeInstr a v))])
  | .read a :: rest, _, failed, s => loadLines rest true failed (s.push [.command (encode (.read a))])

/-- The machine, constructed with these memories bound, that will run the program (R9, R91). -/
def loadProgram (g c : Memory) (lines : List Line) : Option State :=
  loadLines lines false [] (State.construct g c [])

/-! ### Reading the text of a line -/

/-- A token of a line. -/
inductive Token where
  | word (cs : List Char)
  | sym (c : Char)
deriving DecidableEq, Repr

/-- The punctuation of R91's lines. -/
def isSym (c : Char) : Bool := c == ',' || c == '[' || c == ']' || c == '='

/-- White space inside a line. -/
def isBlank (c : Char) : Bool := c == ' ' || c == '\t' || c == '\r'

/-- Ending the word being read, if there is one. -/
def flushWord (word : List Char) (rest : List Token) : List Token :=
  match word with
  | [] => rest
  | _ :: _ => .word word :: rest

/-- The tokens of a line, with the word being read; a `;` starts a comment (R91). -/
def tokens : List Char → List Char → List Token
  | [], word => flushWord word []
  | ch :: rest, word =>
    if ch == ';' then flushWord word []
    else if isBlank ch then flushWord word (tokens rest [])
    else if isSym ch then flushWord word (.sym ch :: tokens rest [])
    else tokens rest (word ++ [ch])

/-- The value of a digit in base 16, letters in either case. -/
def digitValue (ch : Char) : Option Nat :=
  let n := ch.toNat
  if 48 ≤ n ∧ n ≤ 57 then some (n - 48)
  else if 65 ≤ n ∧ n ≤ 70 then some (n - 55)
  else if 97 ≤ n ∧ n ≤ 102 then some (n - 87)
  else none

/-- The digits in a base, after the number read so far. -/
def digitsFrom (base : Nat) : List Char → Nat → Option Nat
  | [], acc => some acc
  | ch :: rest, acc =>
    match digitValue ch with
    | some d => if d < base then digitsFrom base rest (base * acc + d) else none
    | none => none

/-- A decimal count (R91). -/
def decimal : List Char → Option Nat
  | [] => none
  | ch :: rest => digitsFrom 10 (ch :: rest) 0

/-- A number: `0x` hexadecimal or decimal (R91). -/
def number : List Char → Option Nat
  | '0' :: 'x' :: ch :: rest => digitsFrom 16 (ch :: rest) 0
  | cs => decimal cs

/-- A number that fits its operand's width (R84: taken as it stands, never truncated). -/
def operand (width : Nat) (cs : List Char) : Option (BitVec width) :=
  match number cs with
  | some n => if n < 2 ^ width then some (BitVec.ofNat width n) else none
  | none => none

/-- The memory named by `G` or `C` (R91). -/
def spaceOf : List Char → Option Space
  | ['G'] => some .graphics
  | ['C'] => some .color
  | _ => none

/-- A line `G[a] = v` or `G[a] = fail` (R91). -/
def memoryLine (space addr value : List Char) : Option Line :=
  match spaceOf space, operand 16 addr with
  | some sp, some a =>
    if value = ['f', 'a', 'i', 'l'] then some (.setFail sp a)
    else (operand 8 value).map (.setByte sp a)
  | _, _ => none

/-- The line with these tokens; `none` where it is no line of R91. -/
def lineOfTokens : List Token → Option Line
  | [.word ['T', 'I', 'C', 'K']] => some (.tick 1)
  | [.word ['R', 'E', 'S', 'E', 'T']] => some .reset
  | [.word ['T', 'I', 'C', 'K'], .word n] =>
    match decimal n with
    | some count => if count = 0 then none else some (.tick count)
    | none => none
  | [.word ['R', 'E', 'A', 'D'], .word a] => (operand 16 a).map .read
  | [.word ['W', 'R', 'I', 'T', 'E'], .word a, .sym ',', .word v] =>
    match operand 16 a, operand 8 v with
    | some address, some value => some (.write address value)
    | _, _ => none
  | [.word space, .sym '[', .word addr, .sym ']', .sym '=', .word value] => memoryLine space addr value
  | _ => none

/-- The lines of a program's text, split at line ends; the line being read comes first. -/
def splitLines : List Char → List Char → List (List Char)
  | [], line => [line]
  | ch :: rest, line => if ch == '\n' then line :: splitLines rest [] else splitLines rest (line ++ [ch])

/-- The lines read, skipping those that hold only blanks or a comment; `none` if one is no line of R91. -/
def linesOf : List (List Char) → Option (List Line)
  | [] => some []
  | text :: rest =>
    match tokens text [] with
    | [] => linesOf rest
    | t :: ts =>
      match lineOfTokens (t :: ts), linesOf rest with
      | some l, some ls => some (l :: ls)
      | _, _ => none

/-- A program's text as its lines (R91). -/
def parseProgram (text : List Char) : Option (List Line) := linesOf (splitLines text [])

end Sys2Proof.Machine
end

