-- ==== Sys2Proof/Machine/Runs.lean ====
section
/-! DEFINITION. Runs of TICKs in which none fails (40_raster_timing.md R110): the vocabulary of claims about a frame. -/

namespace Sys2Proof.Machine

/-- One successful TICK: it produced a pixel (R104). -/
def tickOk (s : State) : Option State :=
  match exec .tick s with
  | .next t => if t.block.pixValid then some t else none
  | .fault _ => none
  | .refused _ => none

/-- `n` successful TICKs with no failed TICK in between (R110). -/
def ticksOk : Nat → State → Option State
  | 0, s => some s
  | n + 1, s =>
    match tickOk s with
    | some t => ticksOk n t
    | none => none

end Sys2Proof.Machine
end

