-- ==== Sys2Proof/Safety.lean ====
section
/-! DEFINITION. The terms claims use: the invariants of the reachable states (10_state.md R38, R39), the canonical form of
the memories, the set of supported addresses (20_memory.md R56), and a step without a `ReadError` (93 U1). -/

namespace Sys2Proof.Machine

/-- The lock-step invariant R39: the cursor is the function of the raster position that R39 gives. -/
abbrev Block.LockStep (b : Block) : Prop := b.cursor = b.lockStepCursor

/-- Both memories are in canonical form. -/
abbrev State.MemoryWf (s : State) : Prop := s.g.wf ∧ s.c.wf

/-- Two memories support the same addresses (R56). -/
def Memory.SameSupport (m m' : Memory) : Prop := ∀ a : Addr, m'.supports a = m.supports a

/-- The invariant of the reachable states. -/
structure State.Inv (s : State) : Prop where
  /-- The legal ranges of position and cursor (R38). -/
  legal : s.block.Legal
  /-- The legal ranges of the pixel output register (R20). -/
  pixel : s.block.PixelLegal
  /-- Cursor and position in lock step (R39). -/
  lockStep : s.block.LockStep
  /-- The canonical form of the memories. -/
  memory : s.MemoryWf

/-- The addresses of graphics memory that the block can read: character matrix and bitmap table (R53, R54). -/
def InGraphicsRegions (a : Addr) : Prop :=
  (0x0400 ≤ a.toNat ∧ a.toNat < 0x07E8) ∨ (0x1000 ≤ a.toNat ∧ a.toNat < 0x1800)

/-- The addresses of colour memory that the block can read: the colour table (R53, R54). -/
def InColorRegion (a : Addr) : Prop := 0xD800 ≤ a.toNat ∧ a.toNat < 0xDBE8

/-- The memories support every address the block can read, so that no TICK fails (R204 (c)). -/
def SupportsRegions (g c : Memory) : Prop :=
  (∀ a, InGraphicsRegions a → g.supports a = true) ∧ ∀ a, InColorRegion a → c.supports a = true

/-- A response that is a `ReadError`. -/
def Response.isReadError : Response → Bool
  | .error (.readError _) => true
  | .error (.unsupportedAddress _ _) => false
  | .pixel _ _ _ => false
  | .ok => false

/-- The last step returned no `ReadError`: the premise under which a claim holds of every implementation the source
admits, whatever it does after a failed TICK (U1, C4; log 1). -/
def State.Clean (s : State) : Prop := ∀ r ∈ s.responses, r.isReadError = false

end Sys2Proof.Machine
end

