-- ==== Sys2Proof/Certificates/Slice0/Obligations.lean ====
section
/-! DEFINITION. The statements for the provers. Each docstring cites the rules of spec/ it formalises. -/

open Sys2Proof Sys2Proof.Machine

/-! ### Encoding -/

/-- The command words the spec writes out decode to the operations it gives for them (95_test_vectors.md V9,
V5). The encoding is the spec's own decision D1. -/
def Obligations.DecodesSpecWords : Prop :=
  decode 0x0000000#26 = .instr .tick ∧
  decode 0x0FFFFFF#26 = .instr .tick ∧
  decode 0x1D02008#26 = .instr (.writeBorderColor 0x08#8) ∧
  decode 0x1D0210A#26 = .instr (.writeBackgroundColor0 0x0A#8) ∧
  decode 0x1D02205#26 = .instr (.writeUnsupported 0xD022#16 0x05#8) ∧
  decode 0x1FFFFFF#26 = .instr (.writeUnsupported 0xFFFF#16 0xFF#8) ∧
  decode 0x2D02000#26 = .instr (.read 0xD020#16) ∧
  decode 0x2D020FF#26 = .instr (.read 0xD020#16) ∧
  decode 0x3000000#26 = .refused .reservedOp ∧
  decode 0x3FFFFFF#26 = .refused .reservedOp

/-- Decoding the canonical word of a well-formed operation gives it back, every operand at every
value (30_encoding.md sections 2, 3). The encoding is the spec's own decision D1. -/
def Obligations.DecodeOfEncode : Prop :=
  ∀ i : Instr, i.wf = true → decode (encode i) = .instr i

/-- Encoding a decoded word gives the word with its ignored fields zero: no bit that matters is lost
(30_encoding.md sections 2, 3). The encoding is the spec's own decision D1. -/
def Obligations.EncodeOfDecode : Prop :=
  ∀ (w : Cmd) (i : Instr), decode w = .instr i → encode i = canonicalWord w

/-- The opcode map in prose (R86): the five rows with their match and mask, tried in order, the first that matches
taken; only WRITE_UNSUPPORTED overlaps other rows; a word that matches no row has `op = 0b11`. The
encoding is the spec's own decision D1. -/
def Obligations.DecodeTakesFirstMatchingRow : Prop :=
  (opcodeRows.map fun r => (r.mnemonic, r.pattern, r.mask)) =
    [("TICK", 0x0000000#26, 0x3000000#26),
     ("WRITE_BORDER_COLOR", 0x1D02000#26, 0x3FFFF00#26),
     ("WRITE_BACKGROUND_COLOR_0", 0x1D02100#26, 0x3FFFF00#26),
     ("WRITE_UNSUPPORTED", 0x1000000#26, 0x3000000#26),
     ("READ", 0x2000000#26, 0x3000000#26)] ∧
  (∀ w : Cmd, decode w = decodeByRows w) ∧
  (∀ w : Cmd, ∀ r ∈ opcodeRows, ∀ r' ∈ opcodeRows, r.hits w = true → r'.hits w = true →
    r.mnemonic = r'.mnemonic ∨ r.mnemonic = "WRITE_UNSUPPORTED" ∨ r'.mnemonic = "WRITE_UNSUPPORTED") ∧
  (∀ w : Cmd, (∀ r ∈ opcodeRows, r.hits w = false) ↔ opField w = 0b11#2)

/-- Decoding a command word (R83): `op = cmd[25:24]`, the address `cmd[23:8]`, the value `cmd[7:0]`, and what each `op`
means whatever the other bits. The encoding is the spec's own decision D1. -/
def Obligations.DecodeReadsTheFields : Prop :=
  ∀ w : Cmd,
    (opField w).toNat = w.toNat / 2 ^ 24 ∧
    (addressField w).toNat = w.toNat / 2 ^ 8 % 2 ^ 16 ∧
    (valueField w).toNat = w.toNat % 2 ^ 8 ∧
    (w.toNat / 2 ^ 24 = 0 → decode w = .instr .tick) ∧
    (w.toNat / 2 ^ 24 = 1 → decode w = .instr (writeInstr (addressField w) (valueField w))) ∧
    (w.toNat / 2 ^ 24 = 2 → decode w = .instr (.read (addressField w))) ∧
    (w.toNat / 2 ^ 24 = 3 → decode w = .refused .reservedOp)

/-- The decoder gives well-formed operations only (R81, R154; the encoding is the spec's decision D1). -/
def Obligations.DecodedIsWellFormed : Prop :=
  ∀ (w : Cmd) (i : Instr), decode w = .instr i → i.wf = true

/-- WRITE is split by its address, compared on all 16 bits, into the three rows (R81). The command word it
speaks of (R82, R83) is the spec's own decision D1, log 16. -/
def Obligations.WriteSplitByAddress : Prop :=
  ∀ (a : Addr) (v : Byte),
    decode (cmdWord 0b01#2 a v) =
      .instr (if a = 0xD020#16 then .writeBorderColor v
        else if a = 0xD021#16 then .writeBackgroundColor0 v
        else .writeUnsupported a v)

/-! ### A step -/

/-- A step whose next event is a command word runs the operation the word decodes to; the step takes the event off the
list and adds nothing else around `exec` (R8). That operations wait in a list is the model's choice, log 5. -/
def Obligations.StepRunsDecodedInstruction : Prop :=
  ∀ (s : State) (w : Cmd) (rest : List Event) (i : Instr),
    s.pending = .command w :: rest → decode w = .instr i → step s = exec i { s with pending := rest }

/-- A table row's word presented with `withFetchWord` is what the very next step runs: the model's choice, logs 5 and 10. -/
def Obligations.FetchWordRunsNext : Prop :=
  ∀ (s : State) (nbits w : Nat) (i : Instr),
    decodeTableWord nbits w = some i → step (s.withFetchWord nbits w) = exec i s

/-- With no event the block does nothing and keeps all its state (R8, R193; the step that says so is the model's,
log 5). -/
def Obligations.StepIdleHoldsState : Prop :=
  ∀ s : State, s.pending = [] → step s = .next { s with responses := [], reads := [] }

/-- Reset puts every field of the block at its reset value at once, whatever the state was, returns no response, and
leaves both memories alone (R200, R201; how reset is applied is the spec's decision D6, that later events stay is the
model's choice, log 8). -/
def Obligations.StepAppliesReset : Prop :=
  ∀ (s : State) (rest : List Event), s.pending = .reset :: rest →
    step s = .next
      { block := Block.reset, g := s.g, c := s.c, pending := rest, responses := [], reads := [] }

/-- A word with `op = 0b11` is refused by name and the block is given nothing to do (30_encoding.md section 5, the spec's
own decision D1). -/
def Obligations.StepRefusesReservedWord : Prop :=
  ∀ (s : State) (w : Cmd) (rest : List Event), s.pending = .command w :: rest → w.toNat / 2 ^ 24 = 3 →
    step s = .refused (.reservedCommand w)

/-- Another party's change between two operations: a supported address reads as the new byte, every other address and
the other memory read as before, the block is untouched; an unsupported address cannot change (R56, R62; the refusal is
the model's, log 4). -/
def Obligations.StepChangesMemoryByte : Prop :=
  ∀ (s : State) (space : Space) (a : Addr) (v : Byte) (rest : List Event),
    s.pending = .memoryChange space a v :: rest →
      ((s.memory space).supports a = true →
        ∃ t, step s = .next t ∧ t.block = s.block ∧ t.pending = rest ∧ t.responses = [] ∧ t.reads = [] ∧
          (t.memory space).read a = some v ∧
          (∀ b, b ≠ a → (t.memory space).read b = (s.memory space).read b) ∧
          (∀ other, other ≠ space → t.memory other = s.memory other)) ∧
      ((s.memory space).supports a = false →
        step s = .refused (.unsupportedMemoryChange space a))

/-! ### Reset -/

/-- The state after reset (R37): counters and cursor zero, the mask at the most significant bit, the two open parameters
in the colour registers (decision D5; the model's constants of log 2), the pixel register zero (the spec's decision
D10). -/
def Obligations.ResetStateIsAsSpecified : Prop :=
  State.reset.block =
    { xCounter := 0#10, rasterCounter := 0#9
      cursor := { graphicsRow := 0#10, graphicsColumn := 0#6, characterOffset := 0#3, pixelMask := 0x80#8 }
      borderColor := Config.resetBorderColor, backgroundColor0 := Config.resetBackgroundColor0
      pixValid := false, pixX := 0#10, pixLine := 0#9, pixColor := 0x00#8 }

/-- The reset state, and the state constructed over any canonical memories with any events to come, meet the invariant
(R37, R38, R39; that reset lists no memory and no events is the model's choice, logs 3 and 5). -/
def Obligations.ConstructedStateMeetsInvariant : Prop :=
  State.reset.Inv ∧
  ∀ (g c : Memory) (events : List Event), g.wf → c.wf → (State.construct g c events).Inv

/-- The first TICK after reset reports position (0, 0) in the border colour, under any memories (R203; the
colour is the open parameter, log 2). -/
def Obligations.FirstTickReportsOrigin : Prop :=
  ∀ (g c : Memory) (rest : List Event), ∃ t,
    step (State.construct g c (.command (encode .tick) :: rest)) = .next t ∧
      t.responses = [.pixel 0#10 0#9 Config.resetBorderColor] ∧
      t.block.xCounter = 1#10 ∧ t.block.rasterCounter = 0#9 ∧ t.block.cursor = State.reset.block.cursor

/-! ### TICK -/

/-- Classification: a position is in the display window iff its line is in [51, 251) and its x in [124, 444) (R101,
R34). -/
def Obligations.WindowClassification : Prop :=
  ∀ b : Block, b.inWindow = true ↔
    (51 ≤ b.rasterCounter.toNat ∧ b.rasterCounter.toNat < 251) ∧
      (124 ≤ b.xCounter.toNat ∧ b.xCounter.toNat < 444)

/-- A TICK outside the display window always completes: the pixel has the border colour, no memory is read, the cursor,
the colour registers and the memories are unchanged (R100, R102, R103, R104; the latched pixel is the spec's decision
D10). -/
def Obligations.TickOutsideWindow : Prop :=
  ∀ s : State, s.block.Legal → s.block.inWindow = false →
    exec .tick s = .next
      { s with
        block :=
          { s.block with
            xCounter := s.block.nextX, rasterCounter := s.block.nextLine
            pixValid := true, pixX := s.block.xCounter, pixLine := s.block.rasterCounter
            pixColor := s.block.borderColor }
        responses := [.pixel s.block.xCounter s.block.rasterCounter s.block.borderColor]
        reads := [] }

/-- A window TICK whose glyph bit is 0 completes with `background_color_0`, whatever colour memory supports (R100, R120
to R125, R59; the latched pixel is the spec's decision D10). -/
def Obligations.TickBackgroundPixel : Prop :=
  ∀ (s : State) (characterIndex bitmapRow : Byte), s.block.Legal → s.block.inWindow = true →
    s.g.read (BitVec.ofNat 16 (0x0400 + s.block.cursor.graphicsRow.toNat + s.block.cursor.graphicsColumn.toNat))
      = some characterIndex →
    s.g.read (BitVec.ofNat 16 (0x1000 + 8 * characterIndex.toNat + s.block.cursor.characterOffset.toNat))
      = some bitmapRow →
    bitmapRow &&& s.block.cursor.pixelMask = 0#8 →
    ∃ t, exec .tick s = .next t ∧
      t.responses = [.pixel s.block.xCounter s.block.rasterCounter s.block.backgroundColor0] ∧
      t.block =
        { s.block with
          xCounter := s.block.nextX, rasterCounter := s.block.nextLine, cursor := s.block.cursor.step
          pixValid := true, pixX := s.block.xCounter, pixLine := s.block.rasterCounter
          pixColor := s.block.backgroundColor0 } ∧
      t.g = s.g ∧ t.c = s.c ∧ t.pending = s.pending

/-- A window TICK whose glyph bit is 1 completes with the cell's byte of colour memory, all eight bits (R100, R120 to
R126; the latched pixel is the spec's decision D10). -/
def Obligations.TickForegroundPixel : Prop :=
  ∀ (s : State) (characterIndex bitmapRow color : Byte), s.block.Legal → s.block.inWindow = true →
    s.g.read (BitVec.ofNat 16 (0x0400 + s.block.cursor.graphicsRow.toNat + s.block.cursor.graphicsColumn.toNat))
      = some characterIndex →
    s.g.read (BitVec.ofNat 16 (0x1000 + 8 * characterIndex.toNat + s.block.cursor.characterOffset.toNat))
      = some bitmapRow →
    bitmapRow &&& s.block.cursor.pixelMask ≠ 0#8 →
    s.c.read (BitVec.ofNat 16 (0xD800 + s.block.cursor.graphicsRow.toNat + s.block.cursor.graphicsColumn.toNat))
      = some color →
    ∃ t, exec .tick s = .next t ∧
      t.responses = [.pixel s.block.xCounter s.block.rasterCounter color] ∧
      t.block =
        { s.block with
          xCounter := s.block.nextX, rasterCounter := s.block.nextLine, cursor := s.block.cursor.step
          pixValid := true, pixX := s.block.xCounter, pixLine := s.block.rasterCounter, pixColor := color } ∧
      t.g = s.g ∧ t.c = s.c ∧ t.pending = s.pending

/-- The address in `ReadError` (R183): a failing matrix read is reported whatever the other memories would have done;
otherwise a failing bitmap read; otherwise, if the bit is foreground, a failing colour read. The failed TICK changes
`pix_valid` and nothing else: the spec's own decisions D4 and D10, log 1. -/
def Obligations.TickReadErrorPriority : Prop :=
  ∀ s : State, s.block.Legal → s.block.inWindow = true →
    let cell := s.block.cursor.graphicsRow.toNat + s.block.cursor.graphicsColumn.toNat
    let failedAt := fun a : Addr => ∃ t, exec .tick s = .next t ∧ t.responses = [.error (.readError a)] ∧
      t.block = { s.block with pixValid := false } ∧ t.g = s.g ∧ t.c = s.c ∧ t.pending = s.pending
    (s.g.read (BitVec.ofNat 16 (0x0400 + cell)) = none → failedAt (BitVec.ofNat 16 (0x0400 + cell))) ∧
    ∀ characterIndex, s.g.read (BitVec.ofNat 16 (0x0400 + cell)) = some characterIndex →
      let bitmapAddr : Addr :=
        BitVec.ofNat 16 (0x1000 + 8 * characterIndex.toNat + s.block.cursor.characterOffset.toNat)
      (s.g.read bitmapAddr = none → failedAt bitmapAddr) ∧
      ∀ bitmapRow, s.g.read bitmapAddr = some bitmapRow → bitmapRow &&& s.block.cursor.pixelMask ≠ 0#8 →
        s.c.read (BitVec.ofNat 16 (0xD800 + cell)) = none → failedAt (BitVec.ofNat 16 (0xD800 + cell))

/-- The advance (R105): x counts to 519 and returns to 0, the line steps at the end of a line and 261 goes to 0; the
pixel carries the position before the advance; a failed TICK and every other operation leave the position alone
(for a failed TICK that is R106 by the spec's own decision D4, log 1). -/
def Obligations.TickAdvancesPosition : Prop :=
  (∀ s t : State, exec .tick s = .next t →
    (t.block.pixValid = true →
      (∃ color, t.responses = [.pixel s.block.xCounter s.block.rasterCounter color]) ∧
      (s.block.xCounter.toNat < 519 →
        t.block.xCounter.toNat = s.block.xCounter.toNat + 1 ∧ t.block.rasterCounter = s.block.rasterCounter) ∧
      (s.block.xCounter.toNat = 519 →
        t.block.xCounter.toNat = 0 ∧
        (s.block.rasterCounter.toNat = 261 → t.block.rasterCounter.toNat = 0) ∧
        (s.block.rasterCounter.toNat ≠ 261 →
          t.block.rasterCounter.toNat = s.block.rasterCounter.toNat + 1))) ∧
    (t.block.pixValid = false →
      t.block.xCounter = s.block.xCounter ∧ t.block.rasterCounter = s.block.rasterCounter)) ∧
  ∀ (i : Instr) (s t : State), i ≠ .tick → exec i s = .next t →
    t.block.xCounter = s.block.xCounter ∧ t.block.rasterCounter = s.block.rasterCounter

/-- Taken as one number `n = raster_counter * 520 + x_counter`, a successful TICK does `n <- (n + 1) mod 136240`, and
WRITE and READ leave it unchanged (R23). -/
def Obligations.TickCountsPosition : Prop :=
  (∀ s t : State, exec .tick s = .next t → t.block.pixValid = true →
    t.block.rasterCounter.toNat * 520 + t.block.xCounter.toNat =
      (s.block.rasterCounter.toNat * 520 + s.block.xCounter.toNat + 1) % 136240) ∧
  ∀ (i : Instr) (s t : State), i ≠ .tick → exec i s = .next t → t.block.position = s.block.position

/-- Position tracking never drifts (R110): after `n` successful TICKs the position has advanced by `n` modulo the frame
length, and the last of them reported the position before it. -/
def Obligations.PositionNeverDrifts : Prop :=
  ∀ (n : Nat) (s t : State), s.block.Legal → ticksOk n s = some t →
    t.block.rasterCounter.toNat * 520 + t.block.xCounter.toNat = (s.block.position + n) % 136240 ∧
    (0 < n → ∃ color, t.responses =
      [.pixel (BitVec.ofNat 10 ((s.block.position + (n - 1)) % 520))
        (BitVec.ofNat 9 ((s.block.position + (n - 1)) / 520 % 262)) color])

/-- A whole frame: from any legal lock-step state, with memories that support what the block reads, 136240 TICKs all
succeed and bring position and cursor back to where they were; the colour registers and the memories are unchanged.
From the reset state this is the source's round trip of the cursor (R110, R130, R204). -/
def Obligations.FrameReturnsToStart : Prop :=
  ∀ s : State, s.block.Legal → s.block.LockStep → SupportsRegions s.g s.c →
    ∃ t, ticksOk 136240 s = some t ∧
      t.block.xCounter = s.block.xCounter ∧ t.block.rasterCounter = s.block.rasterCounter ∧
      t.block.cursor = s.block.cursor ∧
      t.block.borderColor = s.block.borderColor ∧ t.block.backgroundColor0 = s.block.backgroundColor0 ∧
      t.g = s.g ∧ t.c = s.c

/-- The carry chain of a successful window TICK: the bit step, the column step when the mask has wrapped, the sub-row
step when the column goes from 39 to 0, the row step when the sub-row goes from 7 to 0 (R127, R128, R129). -/
def Obligations.CursorCarryChain : Prop :=
  ∀ s t : State, exec .tick s = .next t → s.block.inWindow = true → t.block.pixValid = true →
    let k := s.block.cursor
    let k' := t.block.cursor
    k'.pixelMask = rotr8 k.pixelMask ∧
    (k'.pixelMask = 0x80#8 ↔ k.pixelMask = 0x01#8) ∧
    (k'.pixelMask ≠ 0x80#8 → k'.graphicsColumn = k.graphicsColumn ∧ k'.characterOffset = k.characterOffset ∧
      k'.graphicsRow = k.graphicsRow) ∧
    (k'.pixelMask = 0x80#8 → k.graphicsColumn.toNat < 39 →
      k'.graphicsColumn.toNat = k.graphicsColumn.toNat + 1 ∧ k'.characterOffset = k.characterOffset ∧
      k'.graphicsRow = k.graphicsRow) ∧
    (k'.pixelMask = 0x80#8 → k.graphicsColumn.toNat = 39 →
      k'.graphicsColumn.toNat = 0 ∧
      (k.characterOffset.toNat < 7 →
        k'.characterOffset.toNat = k.characterOffset.toNat + 1 ∧ k'.graphicsRow = k.graphicsRow) ∧
      (k.characterOffset.toNat = 7 →
        k'.characterOffset.toNat = 0 ∧ k'.graphicsRow.toNat = (k.graphicsRow.toNat + 40) % 1000 ∧
        (k.graphicsRow.toNat = 960 → k'.graphicsRow.toNat = 0) ∧
        (k.graphicsRow.toNat ≠ 960 → k'.graphicsRow.toNat = k.graphicsRow.toNat + 40)))

/-- A TICK outside the window, a failed TICK, a WRITE and a READ do not move the cursor (R102, R107, R24; for a failed
TICK the spec's own decision D4, log 1). -/
def Obligations.CursorMovesOnWindowPixelsOnly : Prop :=
  ∀ (i : Instr) (s t : State), exec i s = .next t →
    (i ≠ .tick ∨ s.block.inWindow = false ∨ t.block.pixValid = false) → t.block.cursor = s.block.cursor

/-- The cursor is one mixed-radix counter (R29): its linear index is in [0, 64000), the fields are recovered from it,
and a successful window TICK adds 1 modulo 64000. -/
def Obligations.CursorIsMixedRadixCounter : Prop :=
  (∀ k : Cursor, k.Legal → k.index < 64000 ∧ Cursor.ofIndex k.index = k) ∧
  (∀ n : Nat, n < 64000 → (Cursor.ofIndex n).Legal ∧ (Cursor.ofIndex n).index = n) ∧
  ∀ s t : State, exec .tick s = .next t → s.block.inWindow = true → t.block.pixValid = true →
    t.block.cursor.index = (s.block.cursor.index + 1) % 64000

/-- `rotr8` (R17): the rotation right by one bit position, as bits, as a number, and on the eight one-hot bytes. -/
def Obligations.RotateRightByOne : Prop :=
  (∀ m : Byte, rotr8 m = (m.extractLsb' 0 1 ++ m.extractLsb' 1 7 : BitVec (1 + 7)) ∧
    (rotr8 m).toNat = m.toNat / 2 + 128 * (m.toNat % 2)) ∧
  rotr8 0x80#8 = 0x40#8 ∧ rotr8 0x40#8 = 0x20#8 ∧ rotr8 0x20#8 = 0x10#8 ∧ rotr8 0x10#8 = 0x08#8 ∧
  rotr8 0x08#8 = 0x04#8 ∧ rotr8 0x04#8 = 0x02#8 ∧ rotr8 0x02#8 = 0x01#8 ∧ rotr8 0x01#8 = 0x80#8

/-- Accesses per operation (R59): WRITE, READ and a TICK outside the window make none; a window TICK reads the matrix,
then the bitmap, then, only if the bit is 1, colour memory, and stops at the first read that fails; a background pixel
does not touch colour memory, which cannot fail it. -/
def Obligations.ReadsPerOperation : Prop :=
  ∀ (i : Instr) (s t : State), exec i s = .next t →
    (i ≠ .tick → t.reads = []) ∧
    (i = .tick → s.block.inWindow = false → t.reads = []) ∧
    (i = .tick → s.block.inWindow = true →
      let cell := s.block.cursor.graphicsRow.toNat + s.block.cursor.graphicsColumn.toNat
      let matrix : Addr := BitVec.ofNat 16 (0x0400 + cell)
      (s.g.read matrix = none → t.reads = [⟨.graphics, matrix⟩]) ∧
      ∀ characterIndex, s.g.read matrix = some characterIndex →
        let bitmap : Addr :=
          BitVec.ofNat 16 (0x1000 + 8 * characterIndex.toNat + s.block.cursor.characterOffset.toNat)
        (s.g.read bitmap = none → t.reads = [⟨.graphics, matrix⟩, ⟨.graphics, bitmap⟩]) ∧
        ∀ bitmapRow, s.g.read bitmap = some bitmapRow →
          (bitmapRow &&& s.block.cursor.pixelMask = 0#8 →
            t.reads = [⟨.graphics, matrix⟩, ⟨.graphics, bitmap⟩] ∧ t.block.pixValid = true) ∧
          (bitmapRow &&& s.block.cursor.pixelMask ≠ 0#8 →
            t.reads =
              [⟨.graphics, matrix⟩, ⟨.graphics, bitmap⟩, ⟨.color, BitVec.ofNat 16 (0xD800 + cell)⟩]))

/-- The block reads no address outside the three memory regions (R54). -/
def Obligations.ReadsStayInRegions : Prop :=
  ∀ (i : Instr) (s t : State), exec i s = .next t →
    ∀ r ∈ t.reads, (r.space = .graphics → InGraphicsRegions r.addr) ∧ (r.space = .color → InColorRegion r.addr)

/-- What the memories hold outside the three regions cannot affect the block (R54): with other memories that answer
alike inside the regions, a TICK does the same. -/
def Obligations.OnlyRegionsMatter : Prop :=
  ∀ (s t : State) (g' c' : Memory),
    (∀ a, InGraphicsRegions a → g'.read a = s.g.read a) → (∀ a, InColorRegion a → c'.read a = s.c.read a) →
    exec .tick s = .next t → exec .tick { s with g := g', c := c' } = .next { t with g := g', c := c' }

/-- With memories that support every address of the regions, every TICK completes with a pixel (R204). -/
def Obligations.NoReadErrorWhenRegionsSupported : Prop :=
  ∀ s : State, s.block.Legal → SupportsRegions s.g s.c →
    ∃ t color, exec .tick s = .next t ∧ t.block.pixValid = true ∧
      t.responses = [.pixel s.block.xCounter s.block.rasterCounter color]

/-- The pixel output register (R166, R167): a successful TICK loads it with the pixel it returns; a failed one clears
`pix_valid` and keeps the rest; WRITE and READ do not change it (R168). The register is the spec's own decision D10. -/
def Obligations.PixelRegisterFollowsTick : Prop :=
  ∀ (i : Instr) (s t : State), exec i s = .next t →
    (i ≠ .tick → t.block.pixValid = s.block.pixValid ∧ t.block.pixX = s.block.pixX ∧
      t.block.pixLine = s.block.pixLine ∧ t.block.pixColor = s.block.pixColor) ∧
    (∀ x line color, i = .tick → t.responses = [.pixel x line color] →
      t.block.pixValid = true ∧ t.block.pixX = x ∧ t.block.pixLine = line ∧ t.block.pixColor = color ∧
      x = s.block.xCounter ∧ line = s.block.rasterCounter) ∧
    (∀ a, i = .tick → t.responses = [.error (.readError a)] →
      t.block.pixValid = false ∧ t.block.pixX = s.block.pixX ∧ t.block.pixLine = s.block.pixLine ∧
      t.block.pixColor = s.block.pixColor)

/-- TICK has no meaning in a state outside the legal ranges (U5; the spec's decision D11, the model's
choice of log 7). -/
def Obligations.TickRefusedOutsideLegalRanges : Prop :=
  ∀ s : State, ¬ s.block.Legal → exec .tick s = .refused .illegalState

/-! ### WRITE and READ -/

/-- WRITE_BORDER_COLOR (R151): the word `0x1D02000 + value` of the spec's own decision D1, log 16;
`border_color <- value`, `Ok`, nothing else. -/
def Obligations.WriteBorderColorStores : Prop :=
  ∀ (s : State) (value : Byte),
    decode (BitVec.ofNat 26 (0x1D02000 + value.toNat)) = .instr (.writeBorderColor value) ∧
    exec (.writeBorderColor value) s = .next
      { s with block := { s.block with borderColor := value }, responses := [.ok], reads := [] }

/-- WRITE_BACKGROUND_COLOR_0 (R152): the word `0x1D02100 + value` of the spec's own decision D1, log
16; `background_color_0 <- value`, `Ok`, nothing else. -/
def Obligations.WriteBackgroundColorStores : Prop :=
  ∀ (s : State) (value : Byte),
    decode (BitVec.ofNat 26 (0x1D02100 + value.toNat)) = .instr (.writeBackgroundColor0 value) ∧
    exec (.writeBackgroundColor0 value) s = .next
      { s with block := { s.block with backgroundColor0 := value }, responses := [.ok], reads := [] }

/-- WRITE_UNSUPPORTED (R154): the word `0x1000000 + 256*address + value` of the spec's own decision D1, log 16; it
answers `UnsupportedAddress(address, value)` and no state is written. -/
def Obligations.WriteUnsupportedFails : Prop :=
  ∀ (s : State) (address : Addr) (value : Byte), address ≠ 0xD020#16 → address ≠ 0xD021#16 →
    decode (BitVec.ofNat 26 (0x1000000 + 256 * address.toNat + value.toNat)) =
      .instr (.writeUnsupported address value) ∧
    exec (.writeUnsupported address value) s = .next
      { s with responses := [.error (.unsupportedAddress address (some value))], reads := [] }

/-- READ (R153): the word `0x2000000 + 256*address`, `cmd[7:0]` ignored; it answers `UnsupportedAddress(address)` for
every address, and no state is read or written. The word is that of the spec's own decision D1, log 16. -/
def Obligations.ReadAlwaysFails : Prop :=
  ∀ (s : State) (address : Addr) (ignored : Byte),
    decode (BitVec.ofNat 26 (0x2000000 + 256 * address.toNat + ignored.toNat)) = .instr (.read address) ∧
    exec (.read address) s = .next
      { s with responses := [.error (.unsupportedAddress address none)], reads := [] }

/-- A write is used by the very next TICK (R155): the border colour outside the window, the background colour for a
window pixel whose bit is 0. -/
def Obligations.WriteSeenByNextTick : Prop :=
  (∀ (s : State) (v : Byte), s.block.Legal → s.block.inWindow = false →
    ∃ t u, exec (.writeBorderColor v) s = .next t ∧ exec .tick t = .next u ∧
      u.responses = [.pixel s.block.xCounter s.block.rasterCounter v]) ∧
  ∀ (s : State) (v characterIndex bitmapRow : Byte), s.block.Legal → s.block.inWindow = true →
    s.g.read (BitVec.ofNat 16 (0x0400 + s.block.cursor.graphicsRow.toNat + s.block.cursor.graphicsColumn.toNat))
      = some characterIndex →
    s.g.read (BitVec.ofNat 16 (0x1000 + 8 * characterIndex.toNat + s.block.cursor.characterOffset.toNat))
      = some bitmapRow →
    bitmapRow &&& s.block.cursor.pixelMask = 0#8 →
    ∃ t u, exec (.writeBackgroundColor0 v) s = .next t ∧ exec .tick t = .next u ∧
      u.responses = [.pixel s.block.xCounter s.block.rasterCounter v]

/-- `WRITE; TICK` and `TICK; WRITE` leave the same block but for the colour of that TICK's pixel (R111). -/
def Obligations.WriteAndTickCommute : Prop :=
  ∀ (s t : State) (a : Addr) (v : Byte), exec .tick s = .next t →
    ∃ tw w wt, exec (writeInstr a v) t = .next tw ∧ exec (writeInstr a v) s = .next w ∧
      exec .tick w = .next wt ∧ { wt.block with pixColor := tw.block.pixColor } = tw.block

/-! ### Responses and errors -/

/-- Every operation returns exactly one response (R18): TICK `Pixel` or `ReadError`, WRITE `Ok` or
`UnsupportedAddress(addr, value)`, READ always `UnsupportedAddress(addr)`. -/
def Obligations.OneResponsePerOperation : Prop :=
  ∀ (i : Instr) (s t : State), i.wf = true → exec i s = .next t →
    match i with
    | .tick => (∃ color, t.responses = [.pixel s.block.xCounter s.block.rasterCounter color]) ∨
        ∃ a, t.responses = [.error (.readError a)]
    | .writeBorderColor _ => t.responses = [.ok]
    | .writeBackgroundColor0 _ => t.responses = [.ok]
    | .writeUnsupported a v => t.responses = [.error (.unsupportedAddress a (some v))]
    | .read a => t.responses = [.error (.unsupportedAddress a none)]

/-- An operation that raises an error commits no change to the state, except that a failed TICK clears `pix_valid`
(R185). For a failed TICK that is the spec's own decisions D4 and D10, log 1. -/
def Obligations.ErrorsCommitNothing : Prop :=
  ∀ (i : Instr) (s t : State) (e : Error), exec i s = .next t → t.responses = [.error e] →
    t.block = (if i = .tick then { s.block with pixValid := false } else s.block)

/-- A TICK repeated after a `ReadError`, with memory unchanged, fails again with the same address and does not move
(R187). It rests on the spec's own decision D4, log 1. -/
def Obligations.RepeatedFailedTickFailsAgain : Prop :=
  ∀ (s t : State) (a : Addr), exec .tick s = .next t → t.responses = [.error (.readError a)] →
    exec .tick t = .next t

/-! ### Rules of the whole machine -/

/-- The block never writes graphics or colour memory (R61), whatever the operation, and a step that is not another
party's change leaves both as they are (R62, R201). -/
def Obligations.BlockNeverWritesMemory : Prop :=
  (∀ (i : Instr) (s t : State), exec i s = .next t → t.g = s.g ∧ t.c = s.c ∧ t.pending = s.pending) ∧
  ∀ s t : State, step s = .next t →
    (∀ space a v rest, s.pending ≠ .memoryChange space a v :: rest) → t.g = s.g ∧ t.c = s.c

/-- A colour register keeps its value until the next successful WRITE to it or until reset (R155, R111). What a
clock cycle does with `rst` and the register port is the spec's own decisions D6 and D7, log 16. -/
def Obligations.ColorsChangeByWriteOrResetOnly : Prop :=
  ∀ s t : State, step s = .next t →
    (t.block.borderColor ≠ s.block.borderColor → ∃ e rest, s.pending = e :: rest ∧
      (e = .reset ∨
       (∃ w, e = .command w ∧ decode w = .instr (.writeBorderColor t.block.borderColor)) ∨
       ∃ p, e = .clock p ∧ (p.rst = true ∨
         (p.regWe = true ∧ p.regAddr = 0xD020#16 ∧ p.regWdata = t.block.borderColor)))) ∧
    (t.block.backgroundColor0 ≠ s.block.backgroundColor0 → ∃ e rest, s.pending = e :: rest ∧
      (e = .reset ∨
       (∃ w, e = .command w ∧ decode w = .instr (.writeBackgroundColor0 t.block.backgroundColor0)) ∨
       ∃ p, e = .clock p ∧ (p.rst = true ∨
         (p.regWe = true ∧ p.regAddr = 0xD021#16 ∧ p.regWdata = t.block.backgroundColor0))))

/-- Every step keeps the legal ranges of the position, the cursor and the pixel register (R38, R20). -/
def Obligations.StepKeepsLegalRanges : Prop :=
  ∀ s t : State, s.block.Legal → s.block.PixelLegal → step s = .next t → t.block.Legal ∧ t.block.PixelLegal

/-- Every step keeps cursor and raster position in lock step (R39, which rests on the spec's own decision D4, log 1). -/
def Obligations.StepKeepsLockStep : Prop :=
  ∀ s t : State, s.block.Legal → s.block.LockStep → step s = .next t → t.block.LockStep

/-- Every step keeps the canonical form of both memories (the form is the model's choice, log 3). -/
def Obligations.StepKeepsMemoryCanonical : Prop :=
  ∀ s t : State, s.MemoryWf → step s = .next t → t.MemoryWf

/-- The set of supported addresses of each memory never changes (R56; the model refuses a change elsewhere, log 4). -/
def Obligations.StepKeepsSupportedAddresses : Prop :=
  ∀ s t : State, step s = .next t → Memory.SameSupport s.g t.g ∧ Memory.SameSupport s.c t.c

/-- Every state reachable from reset, by any sequence of operations, resets, memory changes and clock cycles, over any
memories, meets the invariant: legal ranges (R38) and lock step (R39, on decision D4). Events in a list are the
model's choice, log 5. -/
def Obligations.ReachableStatesMeetInvariant : Prop :=
  ∀ (g c : Memory) (events : List Event) (n : Nat) (t : State), g.wf → c.wf →
    Host.Core.run Sys2Proof.core n (State.construct g c events) = .next t → t.Inv

/-- What the lock step says (R39): at a window position the cursor is given by x and line; outside the window it is at
the start of a cell of column 0; and it is at its origin from the last window position of a frame to the first of the
next. -/
def Obligations.LockStepClosedForm : Prop :=
  ∀ b : Block, b.Legal → b.LockStep →
    let x := b.xCounter.toNat
    let line := b.rasterCounter.toNat
    (b.inWindow = true →
      b.cursor.graphicsColumn.toNat = (x - 124) / 8 ∧ b.cursor.pixelMask = 0x80#8 >>> ((x - 124) % 8) ∧
      b.cursor.characterOffset.toNat = (line - 51) % 8 ∧ b.cursor.graphicsRow.toNat = 40 * ((line - 51) / 8)) ∧
    (b.inWindow = false → b.cursor.pixelMask = 0x80#8 ∧ b.cursor.graphicsColumn.toNat = 0) ∧
    (line < 51 ∨ (line = 51 ∧ x ≤ 124) ∨ (line = 250 ∧ 444 ≤ x) ∨ 251 ≤ line →
      b.cursor = { graphicsRow := 0#10, graphicsColumn := 0#6, characterOffset := 0#3, pixelMask := 0x80#8 })

/-- What a window pixel shows, in closed form (R133): in a lock-step state the colour is a function of the position and
the memories, bit `7 - p` of the glyph's row choosing between colour memory and the background. -/
def Obligations.WindowPixelClosedForm : Prop :=
  ∀ (s : State) (i b : Byte), s.block.Legal → s.block.LockStep → s.block.inWindow = true →
    let x := s.block.xCounter.toNat
    let line := s.block.rasterCounter.toNat
    let cell := 40 * ((line - 51) / 8) + (x - 124) / 8
    s.g.read (BitVec.ofNat 16 (0x0400 + cell)) = some i →
    s.g.read (BitVec.ofNat 16 (0x1000 + 8 * i.toNat + (line - 51) % 8)) = some b →
    (∀ v, b.getLsbD (7 - (x - 124) % 8) = true → s.c.read (BitVec.ofNat 16 (0xD800 + cell)) = some v →
      ∃ t, exec .tick s = .next t ∧ t.responses = [.pixel s.block.xCounter s.block.rasterCounter v]) ∧
    (b.getLsbD (7 - (x - 124) % 8) = false →
      ∃ t, exec .tick s = .next t ∧
        t.responses = [.pixel s.block.xCounter s.block.rasterCounter s.block.backgroundColor0])

/-- Two memories in canonical form that answer alike are the same data (the form is the model's choice, log 3). -/
def Obligations.CanonicalMemoriesEqual : Prop :=
  ∀ m m' : Memory, m.wf → m'.wf → (∀ a, m.read a = m'.read a) → m = m'

/-- A program loaded over canonical memories starts from the reset block and meets the invariant (R91, the spec's own
decision D12; log 14). -/
def Obligations.LoadedProgramMeetsInvariant : Prop :=
  ∀ (g c : Memory) (lines : List Line) (s : State), g.wf → c.wf → loadProgram g c lines = some s →
    s.Inv ∧ s.block = Block.reset

/-! ### The consumer's side -/

/-- SCREEN_Y (R171): the formula on [0, 262), a bijection there, and in its two pieces. -/
def Obligations.ScreenYConverts : Prop :=
  (∀ line, line < 262 → screenY line = some ((line + 221) % 262) ∧ (line + 221) % 262 < 262 ∧
    (41 ≤ line → screenY line = some (line - 41)) ∧ (line < 41 → screenY line = some (line + 221))) ∧
  ∀ y, y < 262 → ∃ line, line < 262 ∧ screenY line = some y ∧
    ∀ line', line' < 262 → screenY line' = some y → line' = line

/-- The landmark values of SCREEN_Y, and the visible lines (R172). -/
def Obligations.ScreenYLandmarks : Prop :=
  screenY 41 = some 0 ∧ screenY 50 = some 9 ∧ screenY 51 = some 10 ∧ screenY 250 = some 209 ∧
  screenY 251 = some 210 ∧ screenY 261 = some 220 ∧ screenY 0 = some 221 ∧ screenY 12 = some 233 ∧
  screenY 13 = some 234 ∧ screenY 40 = some 261 ∧ visibleLineCount = 234 ∧
  ∀ line, line < 262 → (visibleLine line = true ↔ ∃ y, screenY line = some y ∧ y < 234)

/-- The visible area (R170): x in [77, 492) and a line from 41 on or before 13; its place on the screen is column
`x - 77` in [0, 415) and row `SCREEN_Y(raster_line)` in [0, 234). -/
def Obligations.VisibleAreaPlaced : Prop :=
  ∀ x line : Nat, x < 520 → line < 262 →
    (visible x line = true ↔ (77 ≤ x ∧ x < 492) ∧ (41 ≤ line ∨ line < 13)) ∧
    (visible x line = true → ∃ y, screenY line = some y ∧ screenPlace x line = some (x - 77, y) ∧
      x - 77 < 415 ∧ y < 234)

/-! ### The clocked reading -/

/-- One clock cycle (R93, R200): reset overrides; WRITE with READ is refused; else TICK if enabled, then WRITE or READ if
strobed, each answering on its own; with nothing strobed the state holds. The clocked reading is the spec's own decisions
D6 and D7. -/
def Obligations.ClockCycleIsAShortSequence : Prop :=
  ∀ (s : State) (p : PortIn) (rest : List Event), s.pending = .clock p :: rest →
    let s0 := { s with pending := rest }
    (p.rst = true → step s = .next { s0 with block := Block.reset, responses := [], reads := [] }) ∧
    (p.rst = false → p.regWe = true → p.regRe = true → step s = .refused .writeWithRead) ∧
    (p.rst = false → ∀ u : State,
      (p.tickEn = true → exec .tick s0 = .next u) →
      (p.tickEn = false → u = { s0 with responses := [], reads := [] }) →
      (∀ v, p.regWe = true → p.regRe = false → exec (writeInstr p.regAddr p.regWdata) u = .next v →
        step s = .next { v with responses := u.responses ++ v.responses, reads := u.reads ++ v.reads }) ∧
      (∀ v, p.regWe = false → p.regRe = true → exec (.read p.regAddr) u = .next v →
        step s = .next { v with responses := u.responses ++ v.responses, reads := u.reads ++ v.reads }) ∧
      (p.regWe = false → p.regRe = false → step s = .next u))

/-- The combinational outputs of a cycle (R94): the ports whose `*_re` is 1 are the reads of the TICK, in order;
`tick_err` with its address is the TICK's `ReadError`; `reg_err` is the failure of the WRITE or READ (R92). The ports
are the spec's own decisions D7 and D8; see log 9. What they show in the forbidden cycle
with `reg_we` and `reg_re` both 1 is the model's choice, log 19. -/
def Obligations.ClockOutputsMatchOperations : Prop :=
  (∀ (p : PortIn) (s t : State), p.rst = false → p.tickEn = true → exec .tick s = .next t →
    let o := portOut p s
    t.reads = (o.cm.toList.map fun a => ⟨.graphics, a⟩) ++ (o.bm.toList.map fun a => ⟨.graphics, a⟩)
      ++ (o.col.toList.map fun a => ⟨.color, a⟩) ∧
    ∀ a, o.tickErr = some a ↔ t.responses = [.error (.readError a)]) ∧
  (∀ (p : PortIn) (s : State), p.rst = false → p.tickEn = false →
    let o := portOut p s
    o.cm = none ∧ o.bm = none ∧ o.col = none ∧ o.tickErr = none) ∧
  ∀ (p : PortIn) (s : State), p.rst = false →
    (p.regWe = true → p.regRe = false →
      ((portOut p s).regErr = true ↔ p.regAddr ≠ 0xD020#16 ∧ p.regAddr ≠ 0xD021#16)) ∧
    (p.regRe = true → (portOut p s).regErr = true) ∧
    (p.regWe = false → p.regRe = false → (portOut p s).regErr = false)
end

