-- ==== Sys2Proof/Laws/Decode.lean ====
section
/-! SUPPORT. The fields of a command word as numbers, and the fields of a word that was put together (30_encoding.md R82). -/

namespace Sys2Proof

theorem opField_toNat (w : Cmd) : (opField w).toNat = w.toNat / 2 ^ 24 := by
  have := w.isLt
  simp only [opField, BitVec.extractLsb'_toNat, Nat.shiftRight_eq_div_pow]
  omega

theorem addressField_toNat (w : Cmd) : (addressField w).toNat = w.toNat / 2 ^ 8 % 2 ^ 16 := by
  simp only [addressField, BitVec.extractLsb'_toNat, Nat.shiftRight_eq_div_pow]

theorem valueField_toNat (w : Cmd) : (valueField w).toNat = w.toNat % 2 ^ 8 := by
  simp only [valueField, BitVec.extractLsb'_toNat, Nat.shiftRight_eq_div_pow]
  omega

theorem cmdWord_toNat (op : BitVec 2) (a : Addr) (v : Byte) :
    (cmdWord op a v).toNat = 2 ^ 24 * op.toNat + 2 ^ 8 * a.toNat + v.toNat := by
  have h1 : (op ++ a).toNat = 2 ^ 16 * op.toNat + a.toNat := by
    rw [BitVec.toNat_append, ← Nat.shiftLeft_add_eq_or_of_lt a.isLt, Nat.shiftLeft_eq]; omega
  have h2 : (cmdWord op a v).toNat = (op ++ a).toNat <<< 8 ||| v.toNat := BitVec.toNat_append ..
  rw [h2, ← Nat.shiftLeft_add_eq_or_of_lt v.isLt, Nat.shiftLeft_eq, h1]
  omega

theorem opField_cmdWord (op : BitVec 2) (a : Addr) (v : Byte) : opField (cmdWord op a v) = op := by
  apply BitVec.eq_of_toNat_eq
  have := op.isLt; have := a.isLt; have := v.isLt
  rw [opField_toNat, cmdWord_toNat]
  omega

theorem addressField_cmdWord (op : BitVec 2) (a : Addr) (v : Byte) : addressField (cmdWord op a v) = a := by
  apply BitVec.eq_of_toNat_eq
  have := op.isLt; have := a.isLt; have := v.isLt
  rw [addressField_toNat, cmdWord_toNat]
  omega

theorem valueField_cmdWord (op : BitVec 2) (a : Addr) (v : Byte) : valueField (cmdWord op a v) = v := by
  apply BitVec.eq_of_toNat_eq
  have := op.isLt; have := a.isLt; have := v.isLt
  rw [valueField_toNat, cmdWord_toNat]
  omega

/-- A word is the word of its fields. -/
theorem cmdWord_fields (w : Cmd) : cmdWord (opField w) (addressField w) (valueField w) = w := by
  apply BitVec.eq_of_toNat_eq
  have := w.isLt
  rw [cmdWord_toNat, opField_toNat, addressField_toNat, valueField_toNat]
  omega

end Sys2Proof
end

