-- ==== Sys2Proof/Laws/Memory.lean ====
section
/-! SUPPORT. The laws of memory: the canonical form is kept by every memory operation; a read after a change. -/

namespace Sys2Proof.Machine

@[simp] theorem Memory.read_nil (a : Addr) : Memory.read [] a = none := rfl

theorem Memory.read_cons (cell : Host.Cell) (m : Memory) (a : Addr) :
    Memory.read (cell :: m) a = if cell.1 = a.toNat then some cell.2 else Memory.read m a := rfl

/-- A read answers only where a cell is listed. -/
theorem Memory.exists_mem_of_read {m : Memory} {a : Addr} {v : Byte} (h : m.read a = some v) :
    (a.toNat, v) ∈ m := by
  induction m with
  | nil => simp at h
  | cons cell m ih =>
    rw [Memory.read_cons] at h
    split at h
    · rename_i hk
      simp only [Option.some.injEq] at h
      simp [← hk, ← h]
    · exact List.mem_cons_of_mem _ (ih h)

theorem Memory.wf_nil : Memory.wf [] := ⟨List.Pairwise.nil, by simp⟩

theorem Memory.wf_tail {cell : Host.Cell} {m : Memory} (h : Memory.wf (cell :: m)) : Memory.wf m :=
  ⟨(List.pairwise_cons.1 h.1).2, fun p hp => h.2 p (List.mem_cons_of_mem _ hp)⟩

/-- In canonical form a listed cell is what is read. -/
theorem Memory.read_of_mem {m : Memory} (h : m.wf) {a : Addr} {v : Byte} (hm : (a.toNat, v) ∈ m) :
    m.read a = some v := by
  induction m with
  | nil => simp at hm
  | cons cell m ih =>
    rw [Memory.read_cons]
    rcases List.mem_cons.1 hm with rfl | hm'
    · simp
    · have hlt := (List.pairwise_cons.1 h.1).1 _ hm'
      rw [if_neg (by simp at hlt; omega)]
      exact ih (Memory.wf_tail h) hm'

/-! ### Changing a byte -/

theorem Memory.change_cons (cell : Host.Cell) (m : Memory) (a : Addr) (v : Byte) :
    Memory.change (cell :: m) a v =
      if cell.1 = a.toNat then (cell.1, v) :: m else cell :: Memory.change m a v := rfl

/-- A change keeps the list of addresses. -/
theorem Memory.change_keys (m : Memory) (a : Addr) (v : Byte) :
    (m.change a v).map Prod.fst = m.map Prod.fst := by
  induction m with
  | nil => rfl
  | cons cell m ih => rw [Memory.change_cons]; split <;> simp [ih]

/-- The canonical form speaks of the addresses alone. -/
theorem Memory.wf_iff_keys (m : Memory) :
    m.wf ↔ (m.map Prod.fst).Pairwise (· < ·) ∧ ∀ k ∈ m.map Prod.fst, k < 2 ^ 16 := by
  simp [Memory.wf, List.pairwise_map]

theorem Memory.wf_change {m : Memory} (h : m.wf) (a : Addr) (v : Byte) : (m.change a v).wf := by
  rw [Memory.wf_iff_keys] at h ⊢
  rwa [Memory.change_keys]

/-- Reading after a change: the new byte at a supported address, everything else as before. -/
theorem Memory.read_change (m : Memory) (a b : Addr) (v : Byte) :
    (m.change a v).read b = if b = a ∧ m.supports a then some v else m.read b := by
  induction m with
  | nil => simp [Memory.change, Memory.supports]
  | cons cell m ih =>
    have hn : b = a ↔ b.toNat = a.toNat := BitVec.toNat_inj.symm
    by_cases hk : cell.1 = a.toNat
    · rw [Memory.change_cons, if_pos hk]
      simp only [Memory.read_cons, Memory.supports, hk, hn, eq_comm (a := a.toNat)]
      by_cases hb : b.toNat = a.toNat <;> simp [hb]
    · rw [Memory.change_cons, if_neg hk, Memory.read_cons, ih]
      simp only [Memory.read_cons, Memory.supports, if_neg hk]
      by_cases hb : b = a
      · subst hb; simp [hk]
      · simp [hb]

/-- A change keeps the set of supported addresses (R56). -/
theorem Memory.supports_change (m : Memory) (a b : Addr) (v : Byte) :
    (m.change a v).supports b = m.supports b := by
  unfold Memory.supports
  rw [Memory.read_change]
  split
  · rename_i h
    simpa [h.1, Memory.supports] using h.2.symm
  · rfl

/-! ### Setting up a memory -/

theorem Memory.insert_cons (cell : Host.Cell) (m : Memory) (a : Addr) (v : Byte) :
    Memory.insert (cell :: m) a v =
      if a.toNat < cell.1 then (a.toNat, v) :: cell :: m
      else if cell.1 = a.toNat then (a.toNat, v) :: m
      else cell :: Memory.insert m a v := rfl

theorem Memory.mem_insert {m : Memory} {a : Addr} {v : Byte} {p : Host.Cell} (h : p ∈ m.insert a v) :
    p = (a.toNat, v) ∨ p ∈ m := by
  induction m with
  | nil => simpa [Memory.insert] using h
  | cons cell m ih =>
    rw [Memory.insert_cons] at h
    split_ifs at h
    · simpa using h
    · rcases List.mem_cons.1 h with h | h
      · exact .inl h
      · exact .inr (List.mem_cons_of_mem _ h)
    · rcases List.mem_cons.1 h with h | h
      · exact .inr (h ▸ List.mem_cons_self)
      · exact (ih h).imp id (List.mem_cons_of_mem _)

theorem Memory.wf_insert {m : Memory} (h : m.wf) (a : Addr) (v : Byte) : (m.insert a v).wf := by
  have ha : a.toNat < 2 ^ 16 := a.isLt
  refine ⟨?_, fun p hp => ?_⟩
  · induction m with
    | nil => exact List.pairwise_singleton _ _
    | cons cell m ih =>
      have ht := List.pairwise_cons.1 h.1
      rw [Memory.insert_cons]
      split_ifs with h1 h2
      · refine List.pairwise_cons.2 ⟨fun p hp => ?_, h.1⟩
        rcases List.mem_cons.1 hp with rfl | hp
        · exact h1
        · exact lt_trans h1 (ht.1 p hp)
      · exact List.pairwise_cons.2 ⟨fun p hp => h2 ▸ ht.1 p hp, ht.2⟩
      · refine List.pairwise_cons.2 ⟨fun p hp => ?_, ih (Memory.wf_tail h)⟩
        rcases Memory.mem_insert hp with rfl | hp
        · show cell.1 < a.toNat
          omega
        · exact ht.1 p hp
  · rcases Memory.mem_insert hp with rfl | hp
    · exact ha
    · exact h.2 p hp

theorem Memory.erase_sublist (m : Memory) (a : Addr) : (m.erase a).Sublist m := by
  induction m with
  | nil => exact List.Sublist.refl _
  | cons cell m ih =>
    show (if cell.1 = a.toNat then m else cell :: Memory.erase m a).Sublist (cell :: m)
    split
    · exact List.sublist_cons_self _ _
    · exact ih.cons_cons _

theorem Memory.wf_erase {m : Memory} (h : m.wf) (a : Addr) : (m.erase a).wf :=
  ⟨h.1.sublist (m.erase_sublist a), fun p hp => h.2 p ((m.erase_sublist a).subset hp)⟩

end Sys2Proof.Machine
end

