-- ==== Sys2Proof/Laws/State.lean ====
section
/-! SUPPORT. The small lemmas of the state: one per field per update, and what the register file's store leaves alone. -/

namespace Sys2Proof.Machine

@[simp] theorem State.quiet_block (s : State) : (s.quiet).block = s.block := rfl
@[simp] theorem State.quiet_g (s : State) : (s.quiet).g = s.g := rfl
@[simp] theorem State.quiet_c (s : State) : (s.quiet).c = s.c := rfl
@[simp] theorem State.quiet_pending (s : State) : (s.quiet).pending = s.pending := rfl
@[simp] theorem State.quiet_responses (s : State) : (s.quiet).responses = [] := rfl
@[simp] theorem State.quiet_reads (s : State) : (s.quiet).reads = [] := rfl

@[simp] theorem State.respond_block (s : State) (r : Response) (l : List Access) : (s.respond r l).block = s.block := rfl
@[simp] theorem State.respond_g (s : State) (r : Response) (l : List Access) : (s.respond r l).g = s.g := rfl
@[simp] theorem State.respond_c (s : State) (r : Response) (l : List Access) : (s.respond r l).c = s.c := rfl
@[simp] theorem State.respond_pending (s : State) (r : Response) (l : List Access) : (s.respond r l).pending = s.pending := rfl
@[simp] theorem State.respond_responses (s : State) (r : Response) (l : List Access) : (s.respond r l).responses = [r] := rfl
@[simp] theorem State.respond_reads (s : State) (r : Response) (l : List Access) : (s.respond r l).reads = l := rfl

@[simp] theorem State.raise_block (s : State) (e : Error) (l : List Access) : (s.raise e l).block = s.block := rfl
@[simp] theorem State.raise_g (s : State) (e : Error) (l : List Access) : (s.raise e l).g = s.g := rfl
@[simp] theorem State.raise_c (s : State) (e : Error) (l : List Access) : (s.raise e l).c = s.c := rfl
@[simp] theorem State.raise_pending (s : State) (e : Error) (l : List Access) : (s.raise e l).pending = s.pending := rfl
@[simp] theorem State.raise_responses (s : State) (e : Error) (l : List Access) : (s.raise e l).responses = [.error e] := rfl
@[simp] theorem State.raise_reads (s : State) (e : Error) (l : List Access) : (s.raise e l).reads = l := rfl

@[simp] theorem State.applyReset_block (s : State) : (s.applyReset).block = Block.reset := rfl
@[simp] theorem State.applyReset_g (s : State) : (s.applyReset).g = s.g := rfl
@[simp] theorem State.applyReset_c (s : State) : (s.applyReset).c = s.c := rfl
@[simp] theorem State.applyReset_pending (s : State) : (s.applyReset).pending = s.pending := rfl
@[simp] theorem State.applyReset_responses (s : State) : (s.applyReset).responses = [] := rfl
@[simp] theorem State.applyReset_reads (s : State) : (s.applyReset).reads = [] := rfl

@[simp] theorem State.push_block (s : State) (es : List Event) : (s.push es).block = s.block := rfl
@[simp] theorem State.push_g (s : State) (es : List Event) : (s.push es).g = s.g := rfl
@[simp] theorem State.push_c (s : State) (es : List Event) : (s.push es).c = s.c := rfl
@[simp] theorem State.push_pending (s : State) (es : List Event) : (s.push es).pending = s.pending ++ es := rfl
@[simp] theorem State.push_responses (s : State) (es : List Event) : (s.push es).responses = s.responses := rfl
@[simp] theorem State.push_reads (s : State) (es : List Event) : (s.push es).reads = s.reads := rfl

@[simp] theorem State.withFetchWord_block (s : State) (n w : Nat) : (s.withFetchWord n w).block = s.block := rfl
@[simp] theorem State.withFetchWord_g (s : State) (n w : Nat) : (s.withFetchWord n w).g = s.g := rfl
@[simp] theorem State.withFetchWord_c (s : State) (n w : Nat) : (s.withFetchWord n w).c = s.c := rfl
@[simp] theorem State.withFetchWord_pending (s : State) (n w : Nat) : (s.withFetchWord n w).pending = presentWord n w s.pending := rfl
@[simp] theorem State.withFetchWord_responses (s : State) (n w : Nat) : (s.withFetchWord n w).responses = s.responses := rfl
@[simp] theorem State.withFetchWord_reads (s : State) (n w : Nat) : (s.withFetchWord n w).reads = s.reads := rfl

@[simp] theorem State.readRegister_block (s : State) (a : Addr) : (s.readRegister a).block = s.block := rfl
@[simp] theorem State.readRegister_g (s : State) (a : Addr) : (s.readRegister a).g = s.g := rfl
@[simp] theorem State.readRegister_c (s : State) (a : Addr) : (s.readRegister a).c = s.c := rfl
@[simp] theorem State.readRegister_pending (s : State) (a : Addr) : (s.readRegister a).pending = s.pending := rfl
@[simp] theorem State.readRegister_responses (s : State) (a : Addr) : (s.readRegister a).responses = [.error (.unsupportedAddress a none)] := rfl
@[simp] theorem State.readRegister_reads (s : State) (a : Addr) : (s.readRegister a).reads = [] := rfl

@[simp] theorem Block.advance_xCounter (b : Block) : (b.advance).xCounter = b.nextX := rfl
@[simp] theorem Block.advance_rasterCounter (b : Block) : (b.advance).rasterCounter = b.nextLine := rfl
@[simp] theorem Block.advance_cursor (b : Block) : (b.advance).cursor = b.cursor := rfl
@[simp] theorem Block.advance_borderColor (b : Block) : (b.advance).borderColor = b.borderColor := rfl
@[simp] theorem Block.advance_backgroundColor0 (b : Block) : (b.advance).backgroundColor0 = b.backgroundColor0 := rfl
@[simp] theorem Block.advance_pixValid (b : Block) : (b.advance).pixValid = b.pixValid := rfl
@[simp] theorem Block.advance_pixX (b : Block) : (b.advance).pixX = b.pixX := rfl
@[simp] theorem Block.advance_pixLine (b : Block) : (b.advance).pixLine = b.pixLine := rfl
@[simp] theorem Block.advance_pixColor (b : Block) : (b.advance).pixColor = b.pixColor := rfl

@[simp] theorem Block.loadPixel_xCounter (b : Block) (x : BitVec 10) (y : BitVec 9) (v : Byte) : (b.loadPixel x y v).xCounter = b.xCounter := rfl
@[simp] theorem Block.loadPixel_rasterCounter (b : Block) (x : BitVec 10) (y : BitVec 9) (v : Byte) : (b.loadPixel x y v).rasterCounter = b.rasterCounter := rfl
@[simp] theorem Block.loadPixel_cursor (b : Block) (x : BitVec 10) (y : BitVec 9) (v : Byte) : (b.loadPixel x y v).cursor = b.cursor := rfl
@[simp] theorem Block.loadPixel_borderColor (b : Block) (x : BitVec 10) (y : BitVec 9) (v : Byte) : (b.loadPixel x y v).borderColor = b.borderColor := rfl
@[simp] theorem Block.loadPixel_backgroundColor0 (b : Block) (x : BitVec 10) (y : BitVec 9) (v : Byte) : (b.loadPixel x y v).backgroundColor0 = b.backgroundColor0 := rfl
@[simp] theorem Block.loadPixel_pixValid (b : Block) (x : BitVec 10) (y : BitVec 9) (v : Byte) : (b.loadPixel x y v).pixValid = true := rfl
@[simp] theorem Block.loadPixel_pixX (b : Block) (x : BitVec 10) (y : BitVec 9) (v : Byte) : (b.loadPixel x y v).pixX = x := rfl
@[simp] theorem Block.loadPixel_pixLine (b : Block) (x : BitVec 10) (y : BitVec 9) (v : Byte) : (b.loadPixel x y v).pixLine = y := rfl
@[simp] theorem Block.loadPixel_pixColor (b : Block) (x : BitVec 10) (y : BitVec 9) (v : Byte) : (b.loadPixel x y v).pixColor = v := rfl

@[simp] theorem Block.dropPixel_xCounter (b : Block) : (b.dropPixel).xCounter = b.xCounter := rfl
@[simp] theorem Block.dropPixel_rasterCounter (b : Block) : (b.dropPixel).rasterCounter = b.rasterCounter := rfl
@[simp] theorem Block.dropPixel_cursor (b : Block) : (b.dropPixel).cursor = b.cursor := rfl
@[simp] theorem Block.dropPixel_borderColor (b : Block) : (b.dropPixel).borderColor = b.borderColor := rfl
@[simp] theorem Block.dropPixel_backgroundColor0 (b : Block) : (b.dropPixel).backgroundColor0 = b.backgroundColor0 := rfl
@[simp] theorem Block.dropPixel_pixValid (b : Block) : (b.dropPixel).pixValid = false := rfl
@[simp] theorem Block.dropPixel_pixX (b : Block) : (b.dropPixel).pixX = b.pixX := rfl
@[simp] theorem Block.dropPixel_pixLine (b : Block) : (b.dropPixel).pixLine = b.pixLine := rfl
@[simp] theorem Block.dropPixel_pixColor (b : Block) : (b.dropPixel).pixColor = b.pixColor := rfl

@[simp] theorem Block.commitPixel_xCounter (b : Block) (v : Byte) (k : Cursor) : (b.commitPixel v k).xCounter = b.nextX := rfl
@[simp] theorem Block.commitPixel_rasterCounter (b : Block) (v : Byte) (k : Cursor) : (b.commitPixel v k).rasterCounter = b.nextLine := rfl
@[simp] theorem Block.commitPixel_cursor (b : Block) (v : Byte) (k : Cursor) : (b.commitPixel v k).cursor = k := rfl
@[simp] theorem Block.commitPixel_borderColor (b : Block) (v : Byte) (k : Cursor) : (b.commitPixel v k).borderColor = b.borderColor := rfl
@[simp] theorem Block.commitPixel_backgroundColor0 (b : Block) (v : Byte) (k : Cursor) : (b.commitPixel v k).backgroundColor0 = b.backgroundColor0 := rfl
@[simp] theorem Block.commitPixel_pixValid (b : Block) (v : Byte) (k : Cursor) : (b.commitPixel v k).pixValid = true := rfl
@[simp] theorem Block.commitPixel_pixX (b : Block) (v : Byte) (k : Cursor) : (b.commitPixel v k).pixX = b.xCounter := rfl
@[simp] theorem Block.commitPixel_pixLine (b : Block) (v : Byte) (k : Cursor) : (b.commitPixel v k).pixLine = b.rasterCounter := rfl
@[simp] theorem Block.commitPixel_pixColor (b : Block) (v : Byte) (k : Cursor) : (b.commitPixel v k).pixColor = v := rfl

/-! ### The register file's store touches the two colour registers only -/

@[simp] theorem Block.storeRegister_xCounter (b : Block) (a : Addr) (v : Byte) :
    (b.storeRegister a v).xCounter = b.xCounter := by unfold Block.storeRegister; split_ifs <;> rfl
@[simp] theorem Block.storeRegister_rasterCounter (b : Block) (a : Addr) (v : Byte) :
    (b.storeRegister a v).rasterCounter = b.rasterCounter := by unfold Block.storeRegister; split_ifs <;> rfl
@[simp] theorem Block.storeRegister_cursor (b : Block) (a : Addr) (v : Byte) :
    (b.storeRegister a v).cursor = b.cursor := by unfold Block.storeRegister; split_ifs <;> rfl
@[simp] theorem Block.storeRegister_pixValid (b : Block) (a : Addr) (v : Byte) :
    (b.storeRegister a v).pixValid = b.pixValid := by unfold Block.storeRegister; split_ifs <;> rfl
@[simp] theorem Block.storeRegister_pixX (b : Block) (a : Addr) (v : Byte) :
    (b.storeRegister a v).pixX = b.pixX := by unfold Block.storeRegister; split_ifs <;> rfl
@[simp] theorem Block.storeRegister_pixLine (b : Block) (a : Addr) (v : Byte) :
    (b.storeRegister a v).pixLine = b.pixLine := by unfold Block.storeRegister; split_ifs <;> rfl
@[simp] theorem Block.storeRegister_pixColor (b : Block) (a : Addr) (v : Byte) :
    (b.storeRegister a v).pixColor = b.pixColor := by unfold Block.storeRegister; split_ifs <;> rfl

/-! ### The memories -/

@[simp] theorem State.setMemory_block (s : State) (sp : Space) (m : Memory) :
    (s.setMemory sp m).block = s.block := by cases sp <;> rfl
@[simp] theorem State.setMemory_pending (s : State) (sp : Space) (m : Memory) :
    (s.setMemory sp m).pending = s.pending := by cases sp <;> rfl
@[simp] theorem State.memory_setMemory (s : State) (sp : Space) (m : Memory) :
    (s.setMemory sp m).memory sp = m := by cases sp <;> rfl
theorem State.memory_setMemory_of_ne (s : State) {sp sp' : Space} (m : Memory) (h : sp' ≠ sp) :
    (s.setMemory sp m).memory sp' = s.memory sp' := by cases sp <;> cases sp' <;> first | rfl | exact absurd rfl h

end Sys2Proof.Machine
end

