-- ==== Sys2Proof/Laws/Ops.lean ====
section
/-! SUPPORT. What each shared operation can do, said once: the window test, the register file, the pixel mask, the reads of
a window TICK, TICK itself, and a step. -/

namespace Sys2Proof.Machine

/-! ### Predicates -/

/-- The legal ranges of the cursor, as numbers (R20). -/
theorem Cursor.legal_iff (k : Cursor) : k.Legal ↔
    k.graphicsRow.toNat % 40 = 0 ∧ k.graphicsRow.toNat < 1000 ∧ k.graphicsColumn.toNat < 40 ∧
      k.characterOffset.toNat < 8 ∧ OneHot k.pixelMask := Iff.rfl

/-- The legal ranges of position and cursor, as numbers (R20, R38). -/
theorem Block.legal_iff (b : Block) : b.Legal ↔
    b.xCounter.toNat < 520 ∧ b.rasterCounter.toNat < 262 ∧ b.cursor.Legal := Iff.rfl

/-- The legal ranges of the pixel register, as numbers (R20). -/
theorem Block.pixelLegal_iff (b : Block) : b.PixelLegal ↔ b.pixX.toNat < 520 ∧ b.pixLine.toNat < 262 := Iff.rfl

/-- The position as a number (R23). -/
theorem Block.position_eq (b : Block) : b.position = b.rasterCounter.toNat * 520 + b.xCounter.toNat := rfl

theorem Block.inDisplayLines_iff (b : Block) :
    b.inDisplayLines = true ↔ 51 ≤ b.rasterCounter.toNat ∧ b.rasterCounter.toNat < 251 := by
  simp [Block.inDisplayLines]

theorem Block.inDisplayX_iff (b : Block) :
    b.inDisplayX = true ↔ 124 ≤ b.xCounter.toNat ∧ b.xCounter.toNat < 444 := by
  simp [Block.inDisplayX]

theorem Block.lineEnd_iff (b : Block) : b.lineEnd = true ↔ b.xCounter.toNat = 519 := by
  simp [Block.lineEnd]

theorem Block.frameEnd_iff (b : Block) :
    b.frameEnd = true ↔ b.xCounter.toNat = 519 ∧ b.rasterCounter.toNat = 261 := by
  simp [Block.frameEnd, Block.lineEnd]

theorem supportedRegister_iff (a : Addr) : supportedRegister a = true ↔ a = 0xD020#16 ∨ a = 0xD021#16 := by
  simp [supportedRegister]

/-! ### The pixel mask -/

theorem rotr8_toNat : ∀ m : Byte, (rotr8 m).toNat = m.toNat / 2 + 128 * (m.toNat % 2) := by decide

theorem oneHot_rotr8 : ∀ m ∈ oneHotMasks, OneHot (rotr8 m) := by decide

theorem maskWrapped_iff : ∀ m : Byte, maskWrapped m = true ↔ m = 0x01#8 := by decide

theorem maskPosition_rotr8 : ∀ m ∈ oneHotMasks, maskPosition (rotr8 m) = (maskPosition m + 1) % 8 := by decide

theorem maskAt_maskPosition : ∀ m ∈ oneHotMasks, maskAt (maskPosition m) = m := by decide

theorem maskPosition_lt : ∀ m ∈ oneHotMasks, maskPosition m < 8 := by decide

/-! ### The cursor -/

/-- Everything a cursor step can do: which carries fire (R127 to R129). -/
theorem Cursor.step_cases (k : Cursor) :
    (k.pixelMask ≠ 0x01#8 ∧ k.step = { k with pixelMask := rotr8 k.pixelMask }) ∨
    (k.pixelMask = 0x01#8 ∧ k.graphicsColumn.toNat < 39 ∧
      k.step = { k with pixelMask := 0x80#8, graphicsColumn := k.graphicsColumn + 1#6 }) ∨
    (k.pixelMask = 0x01#8 ∧ 39 ≤ k.graphicsColumn.toNat ∧ k.characterOffset.toNat < 7 ∧
      k.step =
        { k with pixelMask := 0x80#8, graphicsColumn := 0#6, characterOffset := k.characterOffset + 1#3 }) ∨
    (k.pixelMask = 0x01#8 ∧ 39 ≤ k.graphicsColumn.toNat ∧ 7 ≤ k.characterOffset.toNat ∧
      k.step =
        { pixelMask := 0x80#8, graphicsColumn := 0#6, characterOffset := 0#3,
          graphicsRow := nextRow k.graphicsRow }) := by
  by_cases hm : k.pixelMask = 0x01#8
  · have hw : maskWrapped k.pixelMask = true := (maskWrapped_iff _).2 hm
    have hr : rotr8 k.pixelMask = 0x80#8 := by rw [hm]; decide
    by_cases hc : k.graphicsColumn.toNat < 39
    · refine .inr (.inl ⟨hm, hc, ?_⟩)
      simp [Cursor.step, hw, Cursor.columnStep, hc, hr]
    · by_cases ho : k.characterOffset.toNat < 7
      · refine .inr (.inr (.inl ⟨hm, by omega, ho, ?_⟩))
        simp [Cursor.step, hw, Cursor.columnStep, hc, hr, Cursor.subRowStep, ho]
      · refine .inr (.inr (.inr ⟨hm, by omega, by omega, ?_⟩))
        simp [Cursor.step, hw, Cursor.columnStep, hc, hr, Cursor.subRowStep, ho]
  · refine .inl ⟨hm, ?_⟩
    have hw : ¬ maskWrapped k.pixelMask = true := fun h => hm ((maskWrapped_iff _).1 h)
    simp [Cursor.step, hw]

/-- The row step as numbers (R129). -/
theorem nextRow_toNat (row : BitVec 10) : (nextRow row).toNat = (row.toNat + 40) % 1000 := by
  show (BitVec.ofNat 10 ((row.toNat + 40) % 1000)).toNat = _
  rw [BitVec.toNat_ofNat]
  omega

/-! ### The raster position -/

/-- The next x as a number (R105). -/
theorem Block.nextX_toNat {b : Block} (h : b.xCounter.toNat < 520) :
    b.nextX.toNat = if b.xCounter.toNat = 519 then 0 else b.xCounter.toNat + 1 := by
  unfold Block.nextX
  simp only [Block.lineEnd_iff]
  split_ifs
  · rfl
  · simp; omega

/-- The next line as a number (R105). -/
theorem Block.nextLine_toNat {b : Block} (h : b.rasterCounter.toNat < 262) :
    b.nextLine.toNat =
      if b.xCounter.toNat = 519 then
        (if b.rasterCounter.toNat = 261 then 0 else b.rasterCounter.toNat + 1)
      else b.rasterCounter.toNat := by
  unfold Block.nextLine
  simp only [Block.lineEnd_iff, Block.frameEnd_iff]
  split_ifs <;> simp_all
  omega

/-! ### The reads of a window TICK -/

theorem memRead_some {sp : Space} {m : Memory} {a : Addr} {v : Byte} (h : m.read a = some v) :
    memRead sp m a = .value v [⟨sp, a⟩] := by simp [memRead, h]

theorem memRead_none {sp : Space} {m : Memory} {a : Addr} (h : m.read a = none) :
    memRead sp m a = .failed a [⟨sp, a⟩] := by simp [memRead, h]

@[simp] theorem ReadResult.failed_andThen {α β : Type} (a : Addr) (l : List Access) (f : α → ReadResult β) :
    (ReadResult.failed a l).andThen f = .failed a l := rfl

theorem ReadResult.value_andThen_value {α β : Type} {v : α} {w : β} {l l' : List Access} {f : α → ReadResult β}
    (h : f v = .value w l') : (ReadResult.value v l).andThen f = .value w (l ++ l') := by
  simp [ReadResult.andThen, h]

theorem ReadResult.value_andThen_failed {α β : Type} {v : α} {a : Addr} {l l' : List Access}
    {f : α → ReadResult β} (h : f v = .failed a l') :
    (ReadResult.value v l).andThen f = .failed a (l ++ l') := by
  simp [ReadResult.andThen, h]

/-- The matrix read fails (R121). -/
theorem resolve_matrix_failed {b : Block} {g c : Memory} (h : g.read b.cursor.matrixAddr = none) :
    resolve b g c = .failed b.cursor.matrixAddr [⟨.graphics, b.cursor.matrixAddr⟩] := by
  simp [resolve, fetchBitmapRow, memRead, h]

/-- The bitmap read fails (R122). -/
theorem resolve_bitmap_failed {b : Block} {g c : Memory} {i : Byte} (h : g.read b.cursor.matrixAddr = some i)
    (h2 : g.read (b.cursor.bitmapAddr i) = none) :
    resolve b g c = .failed (b.cursor.bitmapAddr i)
      [⟨.graphics, b.cursor.matrixAddr⟩, ⟨.graphics, b.cursor.bitmapAddr i⟩] := by
  simp [resolve, fetchBitmapRow, memRead, h, h2, ReadResult.andThen]

/-- A background pixel: colour memory is not read (R125). -/
theorem resolve_background {b : Block} {g c : Memory} {i row : Byte} (h : g.read b.cursor.matrixAddr = some i)
    (h2 : g.read (b.cursor.bitmapAddr i) = some row) (h3 : isForeground row b.cursor.pixelMask = false) :
    resolve b g c = .value (b.backgroundColor0, b.cursor.step)
      [⟨.graphics, b.cursor.matrixAddr⟩, ⟨.graphics, b.cursor.bitmapAddr i⟩] := by
  simp [resolve, fetchBitmapRow, windowColor, memRead, h, h2, h3, ReadResult.andThen]

/-- The colour read fails (R125). -/
theorem resolve_color_failed {b : Block} {g c : Memory} {i row : Byte} (h : g.read b.cursor.matrixAddr = some i)
    (h2 : g.read (b.cursor.bitmapAddr i) = some row) (h3 : isForeground row b.cursor.pixelMask = true)
    (h4 : c.read b.cursor.colorAddr = none) :
    resolve b g c = .failed b.cursor.colorAddr
      [⟨.graphics, b.cursor.matrixAddr⟩, ⟨.graphics, b.cursor.bitmapAddr i⟩, ⟨.color, b.cursor.colorAddr⟩] := by
  simp [resolve, fetchBitmapRow, windowColor, memRead, h, h2, h3, h4, ReadResult.andThen]

/-- A foreground pixel (R125). -/
theorem resolve_foreground {b : Block} {g c : Memory} {i row v : Byte}
    (h : g.read b.cursor.matrixAddr = some i) (h2 : g.read (b.cursor.bitmapAddr i) = some row)
    (h3 : isForeground row b.cursor.pixelMask = true) (h4 : c.read b.cursor.colorAddr = some v) :
    resolve b g c = .value (v, b.cursor.step)
      [⟨.graphics, b.cursor.matrixAddr⟩, ⟨.graphics, b.cursor.bitmapAddr i⟩, ⟨.color, b.cursor.colorAddr⟩] := by
  simp [resolve, fetchBitmapRow, windowColor, memRead, h, h2, h3, h4, ReadResult.andThen]

/-- Everything RESOLVE can do: five cases, by which reads answer and whether the bit is set (R120). -/
theorem resolve_cases (b : Block) (g c : Memory) :
    g.read b.cursor.matrixAddr = none ∨
    (∃ i, g.read b.cursor.matrixAddr = some i ∧ g.read (b.cursor.bitmapAddr i) = none) ∨
    (∃ i row, g.read b.cursor.matrixAddr = some i ∧ g.read (b.cursor.bitmapAddr i) = some row ∧
      isForeground row b.cursor.pixelMask = false) ∨
    (∃ i row, g.read b.cursor.matrixAddr = some i ∧ g.read (b.cursor.bitmapAddr i) = some row ∧
      isForeground row b.cursor.pixelMask = true ∧ c.read b.cursor.colorAddr = none) ∨
    (∃ i row v, g.read b.cursor.matrixAddr = some i ∧ g.read (b.cursor.bitmapAddr i) = some row ∧
      isForeground row b.cursor.pixelMask = true ∧ c.read b.cursor.colorAddr = some v) := by
  cases h : g.read b.cursor.matrixAddr with
  | none => exact .inl rfl
  | some i =>
    cases h2 : g.read (b.cursor.bitmapAddr i) with
    | none => exact .inr (.inl ⟨i, rfl, h2⟩)
    | some row =>
      cases h3 : isForeground row b.cursor.pixelMask with
      | false => exact .inr (.inr (.inl ⟨i, row, rfl, h2, h3⟩))
      | true =>
        cases h4 : c.read b.cursor.colorAddr with
        | none => exact .inr (.inr (.inr (.inl ⟨i, row, rfl, h2, h3, rfl⟩)))
        | some v => exact .inr (.inr (.inr (.inr ⟨i, row, v, rfl, h2, h3, rfl⟩)))

/-! ### TICK -/

theorem tickColor_outside {b : Block} {g c : Memory} (h : b.inWindow = false) :
    tickColor b g c = .value (b.borderColor, b.cursor) [] := by simp [tickColor, h]

theorem tickColor_inside {b : Block} {g c : Memory} (h : b.inWindow = true) :
    tickColor b g c = resolve b g c := by simp [tickColor, h]

/-- A TICK that answers is one from a legal state (U5), and its state is that of its colour result. -/
theorem exec_tick_next {s t : State} :
    exec .tick s = .next t ↔ s.block.Legal ∧ t = s.tickWith (tickColor s.block s.g s.c) := by
  show execTick s = .next t ↔ _
  unfold execTick
  split
  · rename_i h
    exact ⟨fun e => ⟨h, (Host.Outcome.next.inj e).symm⟩, fun e => by rw [e.2]⟩
  · rename_i h
    exact ⟨fun e => by simp at e, fun e => absurd e.1 h⟩

theorem exec_tick_of_legal {s : State} (h : s.block.Legal) :
    exec .tick s = .next (s.tickWith (tickColor s.block s.g s.c)) := exec_tick_next.2 ⟨h, rfl⟩

/-- Everything a TICK can do to the block: commit a pixel with some colour and a cursor, stepped exactly in the window;
or fail, in the window. -/
theorem exec_tick_cases {s t : State} (h : exec .tick s = .next t) :
    s.block.Legal ∧
    ((∃ color reads, t =
        { s with
          block := s.block.commitPixel color (if s.block.inWindow then s.block.cursor.step else s.block.cursor)
          responses := [.pixel s.block.xCounter s.block.rasterCounter color]
          reads := reads }) ∨
     (s.block.inWindow = true ∧ ∃ a reads, t =
        { s with block := s.block.dropPixel, responses := [.error (.readError a)], reads := reads })) := by
  obtain ⟨hl, rfl⟩ := exec_tick_next.1 h
  refine ⟨hl, ?_⟩
  cases hw : s.block.inWindow with
  | false => exact .inl ⟨s.block.borderColor, [], by rw [tickColor_outside hw]; rfl⟩
  | true =>
    rw [tickColor_inside hw]
    obtain h1 | ⟨i, h1, h2⟩ | ⟨i, row, h1, h2, h3⟩ | ⟨i, row, h1, h2, h3, h4⟩ | ⟨i, row, v, h1, h2, h3, h4⟩ :=
      resolve_cases s.block s.g s.c
    · exact .inr ⟨rfl, _, _, by rw [resolve_matrix_failed h1]; rfl⟩
    · exact .inr ⟨rfl, _, _, by rw [resolve_bitmap_failed h1 h2]; rfl⟩
    · exact .inl ⟨_, _, by rw [resolve_background h1 h2 h3]; rfl⟩
    · exact .inr ⟨rfl, _, _, by rw [resolve_color_failed h1 h2 h3 h4]; rfl⟩
    · exact .inl ⟨_, _, by rw [resolve_foreground h1 h2 h3 h4]; rfl⟩

/-! ### The register file -/

/-- A WRITE stores at a register and answers `Ok`, or answers the error and stores nothing (R150). -/
theorem State.writeRegister_cases (s : State) (a : Addr) (v : Byte) :
    (supportedRegister a = true ∧ s.writeRegister a v =
      { s with block := s.block.storeRegister a v, responses := [.ok], reads := [] }) ∨
    (supportedRegister a = false ∧ s.writeRegister a v =
      { s with responses := [.error (.unsupportedAddress a (some v))], reads := [] }) := by
  cases h : supportedRegister a with
  | true => exact .inl ⟨rfl, by simp [State.writeRegister, h, State.respond]⟩
  | false => exact .inr ⟨rfl, by simp [State.writeRegister, h, State.raise, State.respond]⟩

/-- Where there is no register nothing is stored. -/
theorem Block.storeRegister_unsupported {b : Block} {a : Addr} {v : Byte} (h : supportedRegister a = false) :
    b.storeRegister a v = b := by
  simp only [supportedRegister, Bool.or_eq_false_iff, beq_eq_false_iff_ne] at h
  simp [Block.storeRegister, h.1, h.2]

/-- `WRITE(address, value)` is one operation, whichever row its address selects (R81). -/
theorem exec_writeInstr (a : Addr) (v : Byte) (s : State) :
    exec (writeInstr a v) s = .next (s.writeRegister a v) := by
  unfold writeInstr
  split_ifs with h1 h2
  · rw [h1]; rfl
  · rw [h2]; rfl
  · rfl

/-- Everything an operation can do: a TICK, a WRITE at some address, or a READ. -/
theorem exec_cases (i : Instr) (s : State) :
    i = .tick ∨ (∃ a v, exec i s = .next (s.writeRegister a v)) ∨
      ∃ a, i = .read a ∧ exec i s = .next (s.readRegister a) := by
  cases i with
  | tick => exact .inl rfl
  | writeBorderColor v => exact .inr (.inl ⟨_, v, rfl⟩)
  | writeBackgroundColor0 v => exact .inr (.inl ⟨_, v, rfl⟩)
  | writeUnsupported a v => exact .inr (.inl ⟨a, v, rfl⟩)
  | read a => exact .inr (.inr ⟨a, rfl, rfl⟩)

/-! ### A step -/

/-- Everything a step can do: nothing, or the next event. -/
theorem step_cases {s t : State} (h : step s = .next t) :
    (s.pending = [] ∧ t = s.quiet) ∨
      ∃ e rest, s.pending = e :: rest ∧ runEvent e { s with pending := rest } = .next t := by
  unfold step takeNext at h
  split at h
  · rename_i hp
    exact .inl ⟨hp, by simpa using h.symm⟩
  · rename_i e rest hp
    exact .inr ⟨e, rest, hp, h⟩

theorem step_pending {s : State} {e : Event} {rest : List Event} (h : s.pending = e :: rest) :
    step s = runEvent e { s with pending := rest } := by
  simp [step, takeNext, h]

theorem runCommand_next {w : Cmd} {s t : State} (h : runCommand w s = .next t) :
    ∃ i, decode w = .instr i ∧ exec i s = .next t := by
  unfold runCommand at h
  split at h
  · rename_i i hi
    exact ⟨i, hi, h⟩
  · simp at h

theorem changeMemory_next {sp : Space} {a : Addr} {v : Byte} {s t : State}
    (h : changeMemory sp a v s = .next t) :
    (s.memory sp).supports a = true ∧ t = (s.setMemory sp ((s.memory sp).change a v)).quiet := by
  unfold changeMemory at h
  split at h
  · rename_i hs
    exact ⟨hs, by simpa using h.symm⟩
  · simp at h

/-- Everything a clock cycle can do: reset; or a TICK if enabled, then a WRITE or READ if strobed (R93). -/
theorem clockCycle_next {p : PortIn} {s t : State} (h : clockCycle p s = .next t) :
    (p.rst = true ∧ t = s.applyReset) ∨
      (p.rst = false ∧ ∃ u, (if p.tickEn then exec .tick s = .next u else u = s.quiet) ∧
        ((p.regWe = true ∧ ∃ v, exec (writeInstr p.regAddr p.regWdata) u = .next v ∧
            t = { v with responses := u.responses ++ v.responses, reads := u.reads ++ v.reads }) ∨
         (p.regWe = false ∧ p.regRe = true ∧ ∃ v, exec (.read p.regAddr) u = .next v ∧
            t = { v with responses := u.responses ++ v.responses, reads := u.reads ++ v.reads }) ∨
         (p.regWe = false ∧ p.regRe = false ∧ t = u))) := by
  unfold clockCycle at h
  split_ifs at h with h1 h2
  · exact .inl ⟨h1, by simpa using h.symm⟩
  · refine .inr ⟨by simpa using h1, ?_⟩
    split at h <;> try simp at h
    rename_i u hu
    refine ⟨u, ?_, ?_⟩
    · unfold tickPhase at hu
      split_ifs at hu ⊢
      · exact hu
      · simpa using hu.symm
    · unfold registerPhase at h
      split_ifs at h with h3 h4
      · refine .inl ⟨h3, _, exec_writeInstr _ _ _, ?_⟩
        rw [exec_writeInstr] at h
        simpa [afterPhase] using h.symm
      · refine .inr (.inl ⟨by simpa using h3, h4, u.readRegister p.regAddr, rfl, ?_⟩)
        have hr : exec (.read p.regAddr) u = .next (u.readRegister p.regAddr) := rfl
        rw [hr] at h
        simpa [afterPhase] using h.symm
      · exact .inr (.inr ⟨by simpa using h3, by simpa using h4, by simpa using h.symm⟩)

end Sys2Proof.Machine
end

