-- ==== Sys2Proof/Laws/PerInstr.lean ====
section
/-! SUPPORT. A statement about every operation as syntax, one lemma per constructor: its canonical word carries its own `op`
in `cmd[25:24]`, and so is never the reserved one (30_encoding.md R82, R88). -/

namespace Sys2Proof.Laws.EncodedOp

/-- The `op` field of the canonical word is the operation's, and is not `0b11`. -/
def Statement (i : Instr) : Prop := opField (encode i) = i.op ∧ opField (encode i) ≠ 0b11#2

theorem tick : Statement .tick := ⟨opField_cmdWord _ _ _, by rw [encode, opField_cmdWord]; decide⟩
theorem writeBorderColor (value : Byte) : Statement (.writeBorderColor value) :=
  ⟨opField_cmdWord _ _ _, by rw [encode, opField_cmdWord]; decide⟩
theorem writeBackgroundColor0 (value : Byte) : Statement (.writeBackgroundColor0 value) :=
  ⟨opField_cmdWord _ _ _, by rw [encode, opField_cmdWord]; decide⟩
theorem writeUnsupported (address : Addr) (value : Byte) : Statement (.writeUnsupported address value) :=
  ⟨opField_cmdWord _ _ _, by rw [encode, opField_cmdWord]; decide⟩
theorem read (address : Addr) : Statement (.read address) :=
  ⟨opField_cmdWord _ _ _, by rw [encode, opField_cmdWord]; decide⟩

end Sys2Proof.Laws.EncodedOp
end

