-- ==== Sys2Proof/Tests/Slice0.lean ====
section
/-! SUPPORT. The model's own tests, with results taken from spec/95_test_vectors.md and the rules, and for each statement with
hypotheses a witness that meets them. -/

namespace Sys2Proof.Tests

open Sys2Proof Sys2Proof.Machine

/-! ### Helpers -/

/-- A block at a position with a cursor; border 0x08, background 0x0A. -/
def blockAt (x : BitVec 10) (line : BitVec 9) (k : Cursor) : Block :=
  { Block.resetWith 0x08#8 0x0A#8 with xCounter := x, rasterCounter := line, cursor := k }

/-- A state of a block and two memories, with nothing pending. -/
def stateOf (b : Block) (g c : Memory) : State := ⟨b, g, c, [], [], []⟩

/-- Graphics memory with one cell, which holds glyph 0, and one bitmap row of it. -/
def oneGlyph (cell sub : Nat) (row : Byte) : Memory := [(0x0400 + cell, 0x00#8), (0x1000 + sub, row)]

/-- Every address supported, every byte zero: the zero memory of 95_test_vectors.md. -/
def zeroMemory : Memory := (List.range 65536).map fun k => (k, 0x00#8)

/-- The next state of an outcome. -/
def nextOf (o : Host.Outcome State Fault Refusal) : Option State :=
  match o with
  | .next t => some t
  | .fault _ => none
  | .refused _ => none

/-- A border position with the cursor at its origin. -/
def atBorder : State := stateOf (blockAt 0#10 0#9 Cursor.origin) [] []

/-- A window state at a position with a cursor, one glyph row and no colour memory. -/
def atWindow (x : BitVec 10) (line : BitVec 9) (k : Cursor) (row : Byte) : State :=
  stateOf (blockAt x line k) (oneGlyph k.cell k.characterOffset.toNat row) []

/-- The first window position with its glyph bit set and colour memory 0x0E. -/
def atForeground : State :=
  stateOf (blockAt 124#10 51#9 Cursor.origin) [(0x0400, 0x01#8), (0x1008, 0x80#8)] [(0xD800, 0x0E#8)]

/-- The first window position with its glyph bit clear. -/
def atBackground : State := atWindow 124#10 51#9 Cursor.origin 0x40#8

/-- The first window position with no memory at all. -/
def atNoMemory : State := stateOf (blockAt 124#10 51#9 Cursor.origin) [] []

/-- A state outside the legal ranges. -/
def atIllegal : State := stateOf (blockAt 600#10 0#9 Cursor.origin) [] []

/-- A clock cycle's input ports. -/
def ports (rst tickEn regWe regRe : Bool) (a : Addr) : PortIn := ⟨rst, tickEn, regWe, regRe, a, 0x03#8⟩

/-! ### Well-formedness -/

theorem test_wf_refuses_border_address : (Instr.writeUnsupported 0xD020#16 0x05#8).wf = false := by decide
theorem test_wf_refuses_background_address : (Instr.writeUnsupported 0xD021#16 0x05#8).wf = false := by decide
theorem test_wf_accepts_neighbours :
    (Instr.writeUnsupported 0xD01F#16 0x05#8).wf = true ∧ (Instr.writeUnsupported 0xD022#16 0x05#8).wf = true := by
  decide

/-! ### Decoding: words written out from the encoding (R82, V9) -/

theorem test_decode_tick : decode 0b00000000000000000000000000#26 = .instr .tick := by decide
theorem test_decode_tick_ignores : decode 0b00111111111111111111111111#26 = .instr .tick := by decide
theorem test_decode_writeBorderColor :
    decode 0b01110100000010000000001000#26 = .instr (.writeBorderColor 0x08#8) := by decide
theorem test_decode_writeBackgroundColor0 :
    decode 0b01110100000010000100001010#26 = .instr (.writeBackgroundColor0 0x0A#8) := by decide
theorem test_decode_writeUnsupported :
    decode 0b01110100000010001000000101#26 = .instr (.writeUnsupported 0xD022#16 0x05#8) := by decide
theorem test_decode_read : decode 0b10110100000010000000000000#26 = .instr (.read 0xD020#16) := by decide
theorem test_decode_read_ignores : decode 0b10110100000010000011111111#26 = .instr (.read 0xD020#16) := by decide
theorem test_decode_reserved : decode 0b11000000000000000000000000#26 = .refused .reservedOp := by decide
theorem test_decodeTableWord_rows :
    decodeTableWord 26 0x0000000 = some .tick ∧
    decodeTableWord 32 0x1D02000 = some (.writeBorderColor 0x00#8) ∧
    decodeTableWord 32 0x1D02100 = some (.writeBackgroundColor0 0x00#8) ∧
    decodeTableWord 32 0x1000000 = some (.writeUnsupported 0x0000#16 0x00#8) ∧
    decodeTableWord 32 0x2000000 = some (.read 0x0000#16) ∧
    decodeTableWord 32 0x3000000 = none ∧ decodeTableWord 32 0x4000000 = none := by decide
theorem test_rows_run_first_after_reset :
    ∀ w ∈ [0x0000000, 0x1D02000, 0x1D02100, 0x1000000, 0x2000000],
      ((nextOf (step (State.reset.withFetchWord 32 w))).map fun t => t.responses.length) = some 1 := by decide

/-! ### Operations -/

/-- V1: the end of a frame. -/
theorem test_tick_frame_end :
    (nextOf (exec .tick (stateOf (blockAt 519#10 261#9 Cursor.origin) [] []))).map
        (fun t => (t.responses, t.block.xCounter, t.block.rasterCounter)) =
      some ([.pixel 519#10 261#9 0x08#8], 0#10, 0#9) := by decide
/-- V3: the glyph in the middle of the screen, at (263, 150). -/
theorem test_tick_foreground :
    (nextOf (exec .tick
        (stateOf (blockAt 263#10 150#9 ⟨480#10, 17#6, 3#3, 0x10#8⟩)
          [(0x05F1, 0x41#8), (0x120B, 0x10#8)] [(0xD9F1, 0x03#8)]))).map
        (fun t => (t.responses, t.block.cursor)) =
      some ([.pixel 263#10 150#9 0x03#8], ⟨480#10, 17#6, 3#3, 0x08#8⟩) := by decide
/-- V5: a value above 15 is stored whole. -/
theorem test_write_border :
    (nextOf (exec (.writeBorderColor 0xFF#8) atBorder)).map
        (fun t => (t.responses, t.block.borderColor, t.block.backgroundColor0)) =
      some ([.ok], 0xFF#8, 0x0A#8) := by decide
/-- V5. -/
theorem test_write_background :
    (nextOf (exec (.writeBackgroundColor0 0x06#8) atBorder)).map
        (fun t => (t.responses, t.block.borderColor, t.block.backgroundColor0)) =
      some ([.ok], 0x08#8, 0x06#8) := by decide
/-- S6: the boundary address 0xD022. -/
theorem test_write_unsupported :
    (nextOf (exec (.writeUnsupported 0xD022#16 0x05#8) atBorder)).map (fun t => (t.responses, t.block)) =
      some ([.error (.unsupportedAddress 0xD022#16 (some 0x05#8))], atBorder.block) := by decide
/-- V5. -/
theorem test_read_border :
    (nextOf (exec (.read 0xD020#16) atBorder)).map (fun t => (t.responses, t.block)) =
      some ([.error (.unsupportedAddress 0xD020#16 none)], atBorder.block) := by decide
/-- V4: the carry chain at each of its carries. -/
theorem test_cursor_carries :
    Cursor.step ⟨0, 0, 0, 0x80#8⟩ = ⟨0, 0, 0, 0x40#8⟩ ∧
    Cursor.step ⟨0, 0, 0, 0x01#8⟩ = ⟨0, 1, 0, 0x80#8⟩ ∧
    Cursor.step ⟨0, 38, 0, 0x01#8⟩ = ⟨0, 39, 0, 0x80#8⟩ ∧
    Cursor.step ⟨0, 39, 0, 0x01#8⟩ = ⟨0, 0, 1, 0x80#8⟩ ∧
    Cursor.step ⟨0, 39, 6, 0x01#8⟩ = ⟨0, 0, 7, 0x80#8⟩ ∧
    Cursor.step ⟨0, 39, 7, 0x01#8⟩ = ⟨40, 0, 0, 0x80#8⟩ ∧
    Cursor.step ⟨920, 39, 7, 0x01#8⟩ = ⟨960, 0, 0, 0x80#8⟩ ∧
    Cursor.step ⟨960, 39, 7, 0x01#8⟩ = ⟨0, 0, 0, 0x80#8⟩ := by decide
/-- V8: the reachable state at (304, 100) has the cursor (240, 22, 1, 0x08), index 15860. -/
theorem test_lock_step_V8 :
    (blockAt 304#10 100#9 ⟨240#10, 22#6, 1#3, 0x08#8⟩).LockStep ∧
      Cursor.index ⟨240#10, 22#6, 1#3, 0x08#8⟩ = 15860 := by decide
/-- R108. -/
theorem test_regions :
    horizontalRegion 76 = some .blanking ∧ horizontalRegion 77 = some .leftBorder ∧
    horizontalRegion 124 = some .displayWindow ∧ horizontalRegion 444 = some .rightBorder ∧
    horizontalRegion 492 = some .blanking ∧ horizontalRegion 520 = none ∧ screenY 262 = none ∧
    verticalRegion 12 = some .bottomBorder ∧ verticalRegion 13 = some .blankArea ∧
    verticalRegion 41 = some .topBorder ∧ verticalRegion 51 = some .displayWindow ∧
    verticalRegion 251 = some .bottomBorder ∧ verticalRegion 262 = none := by decide
/-- R91: three lines of text, and one that is no line. -/
theorem test_parse :
    parseProgram
        ['T', 'I', 'C', 'K', ' ', '2', ';', 'x', '\n',
         'W', 'R', 'I', 'T', 'E', ' ', '0', 'x', 'D', '0', '2', '0', ',', ' ', '8', '\n',
         'G', '[', '1', '0', ']', ' ', '=', ' ', 'f', 'a', 'i', 'l'] =
      some [.tick 2, .write 0xD020#16 0x08#8, .setFail .graphics 10#16] ∧
    parseProgram ['T', 'I', 'C', 'K', ' ', '0'] = none := by decide
/-- R91: a memory line before the first operation sets the memory up, one after it is an event; `= fail` after it is
refused. -/
theorem test_load :
    (loadProgram [] [] [.setByte .graphics 5#16 1#8, .tick 1, .setByte .graphics 5#16 2#8]).map
        (fun s => (s.g, s.pending)) =
      some ([(5, 1#8)], [.command 0#26, .memoryChange .graphics 5#16 2#8]) ∧
    loadProgram [] [] [.tick 1, .setFail .color 5#16] = none := by decide

/-! ### Witnesses: each meets the hypotheses of the statement it is named after -/

theorem zeroMemory_wf : zeroMemory.wf := by
  refine ⟨?_, ?_⟩
  · unfold zeroMemory
    rw [List.pairwise_map]
    exact List.pairwise_lt_range
  · intro p hp
    obtain ⟨k, hk, rfl⟩ := List.mem_map.1 hp
    exact List.mem_range.1 hk

theorem zeroMemory_supports (a : Addr) : zeroMemory.supports a = true := by
  have hm : (a.toNat, (0x00#8 : Byte)) ∈ zeroMemory :=
    List.mem_map.2 ⟨a.toNat, List.mem_range.2 a.isLt, rfl⟩
  unfold Memory.supports
  rw [Memory.read_of_mem zeroMemory_wf hm]
  rfl

theorem witness_DecodeOfEncode : (Instr.writeUnsupported 0xD022#16 0x05#8).wf = true := by decide
theorem witness_EncodeOfDecode : decode 0x2D020FF#26 = .instr (.read 0xD020#16) := by decide
theorem witness_DecodeTakesFirstMatchingRow :
    (∃ r ∈ opcodeRows, ∃ r' ∈ opcodeRows, r ≠ r' ∧ r.hits 0x1D02008#26 = true ∧ r'.hits 0x1D02008#26 = true) ∧
      ∀ r ∈ opcodeRows, r.hits 0x3000000#26 = false := by
  refine ⟨⟨_, List.mem_cons_of_mem _ List.mem_cons_self, _,
    List.mem_cons_of_mem _ (List.mem_cons_of_mem _ (List.mem_cons_of_mem _ List.mem_cons_self)), ?_, rfl, rfl⟩, ?_⟩
  · intro h
    exact absurd (congrArg Row.mnemonic h) (by decide)
  · decide
theorem witness_DecodeReadsTheFields :
    (0x0FFFFFF#26).toNat / 2 ^ 24 = 0 ∧ (0x1000000#26).toNat / 2 ^ 24 = 1 ∧ (0x2FFFFFF#26).toNat / 2 ^ 24 = 2 ∧
      (0x3000000#26).toNat / 2 ^ 24 = 3 := by decide
theorem witness_DecodedIsWellFormed : decode 0x1D02205#26 = .instr (.writeUnsupported 0xD022#16 0x05#8) := by
  decide
theorem witness_StepRunsDecodedInstruction :
    ({ atBorder with pending := [.command 0#26] } : State).pending = .command 0#26 :: [] ∧
      decode 0#26 = .instr .tick := by decide
theorem witness_FetchWordRunsNext : decodeTableWord 32 0x2000000 = some (.read 0x0000#16) := by decide
theorem witness_StepIdleHoldsState : State.reset.pending = [] := rfl
theorem witness_StepAppliesReset :
    ({ atForeground with pending := [.reset, .reset] } : State).pending = .reset :: [.reset] := rfl
theorem witness_StepRefusesReservedWord :
    ({ atBorder with pending := [.command 0x3FFFFFF#26] } : State).pending = .command 0x3FFFFFF#26 :: [] ∧
      (0x3FFFFFF#26).toNat / 2 ^ 24 = 3 := by decide
theorem witness_StepChangesMemoryByte :
    (∃ s : State, s.pending = .memoryChange .color 0xD800#16 0x07#8 :: [] ∧
      (s.memory .color).supports 0xD800#16 = true) ∧
    ∃ s : State, s.pending = .memoryChange .color 0xD800#16 0x07#8 :: [] ∧
      (s.memory .color).supports 0xD800#16 = false :=
  ⟨⟨{ atForeground with pending := [.memoryChange .color 0xD800#16 0x07#8] }, rfl, by decide⟩,
   ⟨{ atBorder with pending := [.memoryChange .color 0xD800#16 0x07#8] }, rfl, by decide⟩⟩
theorem witness_ConstructedStateMeetsInvariant : Memory.wf [(0x0400, 0x01#8), (0xFFFF, 0x80#8)] := by decide
theorem witness_TickOutsideWindow : atBorder.block.Legal ∧ atBorder.block.inWindow = false := by decide
theorem witness_TickBackgroundPixel :
    atBackground.block.Legal ∧ atBackground.block.inWindow = true ∧
      atBackground.g.read (BitVec.ofNat 16
        (0x0400 + atBackground.block.cursor.graphicsRow.toNat + atBackground.block.cursor.graphicsColumn.toNat)) =
        some 0x00#8 ∧
      atBackground.g.read (BitVec.ofNat 16
        (0x1000 + 8 * (0x00#8).toNat + atBackground.block.cursor.characterOffset.toNat)) = some 0x40#8 ∧
      0x40#8 &&& atBackground.block.cursor.pixelMask = 0#8 := by decide
theorem witness_TickForegroundPixel :
    atForeground.block.Legal ∧ atForeground.block.inWindow = true ∧
      atForeground.g.read (BitVec.ofNat 16
        (0x0400 + atForeground.block.cursor.graphicsRow.toNat + atForeground.block.cursor.graphicsColumn.toNat)) =
        some 0x01#8 ∧
      atForeground.g.read (BitVec.ofNat 16
        (0x1000 + 8 * (0x01#8).toNat + atForeground.block.cursor.characterOffset.toNat)) = some 0x80#8 ∧
      0x80#8 &&& atForeground.block.cursor.pixelMask ≠ 0#8 ∧
      atForeground.c.read (BitVec.ofNat 16
        (0xD800 + atForeground.block.cursor.graphicsRow.toNat + atForeground.block.cursor.graphicsColumn.toNat)) =
        some 0x0E#8 := by decide
/-- V6: each of the three reads fails. -/
theorem witness_TickReadErrorPriority :
    (atNoMemory.block.Legal ∧ atNoMemory.block.inWindow = true ∧ atNoMemory.g.read 0x0400#16 = none) ∧
    Memory.read [(0x0400, 0x02#8)] 0x0400#16 = some 0x02#8 ∧ Memory.read [(0x0400, 0x02#8)] 0x1010#16 = none ∧
    Memory.read (oneGlyph 0 0 0x80#8) 0x1000#16 = some 0x80#8 ∧ Memory.read [] 0xD800#16 = none := by decide
theorem witness_TickAdvancesPosition :
    (∃ t, exec .tick (stateOf (blockAt 518#10 0#9 Cursor.origin) [] []) = .next t ∧ t.block.pixValid = true) ∧
    (∃ t, exec .tick (stateOf (blockAt 519#10 260#9 Cursor.origin) [] []) = .next t ∧ t.block.pixValid = true) ∧
    (∃ t, exec .tick (stateOf (blockAt 519#10 261#9 Cursor.origin) [] []) = .next t ∧ t.block.pixValid = true) ∧
    (∃ t, exec .tick atNoMemory = .next t ∧ t.block.pixValid = false) ∧
    ∃ t, exec (.read 0xD020#16) atBorder = .next t :=
  ⟨⟨_, rfl, rfl⟩, ⟨_, rfl, rfl⟩, ⟨_, rfl, rfl⟩, ⟨_, rfl, rfl⟩, ⟨_, rfl⟩⟩
theorem witness_TickCountsPosition :
    (∃ t, exec .tick atForeground = .next t ∧ t.block.pixValid = true) ∧
    ∃ t, exec (.writeBorderColor 0x03#8) atBorder = .next t := ⟨⟨_, rfl, rfl⟩, ⟨_, rfl⟩⟩
theorem witness_PositionNeverDrifts : atBorder.block.Legal ∧ ∃ t, ticksOk 1 atBorder = some t :=
  ⟨by decide, _, rfl⟩
theorem witness_FrameReturnsToStart :
    atBorder.block.Legal ∧ atBorder.block.LockStep ∧ SupportsRegions zeroMemory zeroMemory :=
  ⟨by decide, by decide, fun a _ => zeroMemory_supports a, fun a _ => zeroMemory_supports a⟩
/-- V4: one window state for each carry, the last at the end of the frame. -/
theorem witness_CursorCarryChain :
    ∀ s ∈ [atWindow 124#10 51#9 Cursor.origin 0#8, atWindow 435#10 51#9 ⟨0, 38, 0, 0x01#8⟩ 0#8,
        atWindow 443#10 57#9 ⟨0, 39, 6, 0x01#8⟩ 0#8, atWindow 443#10 242#9 ⟨920, 39, 7, 0x01#8⟩ 0#8,
        atWindow 443#10 250#9 ⟨960, 39, 7, 0x01#8⟩ 0#8],
      s.block.inWindow = true ∧ s.block.LockStep ∧
        ((nextOf (exec .tick s)).map fun t => t.block.pixValid) = some true := by decide
theorem witness_CursorMovesOnWindowPixelsOnly :
    (∃ t, exec (.read 0x1234#16) atBorder = .next t) ∧
    (∃ t, exec .tick atBorder = .next t ∧ atBorder.block.inWindow = false) ∧
    ∃ t, exec .tick atNoMemory = .next t ∧ t.block.pixValid = false := ⟨⟨_, rfl⟩, ⟨_, rfl, rfl⟩, ⟨_, rfl, rfl⟩⟩
theorem witness_CursorIsMixedRadixCounter :
    (⟨960, 39, 7, 0x01#8⟩ : Cursor).Legal ∧ 63999 < 64000 ∧
    ∃ t, exec .tick (atWindow 443#10 250#9 ⟨960, 39, 7, 0x01#8⟩ 0#8) = .next t ∧ t.block.pixValid = true :=
  ⟨by decide, by decide, _, rfl, rfl⟩
theorem witness_ReadsPerOperation :
    (∃ t, exec (.writeUnsupported 0xD800#16 0x03#8) atForeground = .next t) ∧
    (∃ t, exec .tick atBorder = .next t ∧ atBorder.block.inWindow = false) ∧
    (∃ t, exec .tick atNoMemory = .next t ∧ atNoMemory.block.inWindow = true ∧
      atNoMemory.g.read 0x0400#16 = none) ∧
    (∃ t, exec .tick { atNoMemory with g := [(0x0400, 0x02#8)] } = .next t) ∧
    (∃ t, exec .tick atBackground = .next t) ∧ ∃ t, exec .tick atForeground = .next t :=
  ⟨⟨_, rfl⟩, ⟨_, rfl, rfl⟩, ⟨_, rfl, rfl, rfl⟩, ⟨_, rfl⟩, ⟨_, rfl⟩, ⟨_, rfl⟩⟩
theorem witness_ReadsStayInRegions :
    ∃ t, exec .tick atForeground = .next t ∧ (⟨.graphics, 0x1008#16⟩ : Access) ∈ t.reads ∧
      (⟨.color, 0xD800#16⟩ : Access) ∈ t.reads := ⟨_, rfl, by decide, by decide⟩
theorem witness_OnlyRegionsMatter :
    (∀ a, InGraphicsRegions a → Memory.read [(0x0000, 0x55#8)] a = atBorder.g.read a) ∧
    (∀ a, InColorRegion a → Memory.read [(0xD020, 0x55#8)] a = atBorder.c.read a) ∧
    ∃ t, exec .tick atBorder = .next t := by
  refine ⟨fun a h => ?_, fun a h => ?_, _, rfl⟩
  · rw [Memory.read_cons, if_neg]
    · rfl
    · unfold InGraphicsRegions at h
      show ¬ (0 = a.toNat)
      omega
  · rw [Memory.read_cons, if_neg]
    · rfl
    · unfold InColorRegion at h
      show ¬ (0xD020 = a.toNat)
      omega
theorem witness_NoReadErrorWhenRegionsSupported :
    atForeground.block.Legal ∧ SupportsRegions zeroMemory zeroMemory :=
  ⟨by decide, fun a _ => zeroMemory_supports a, fun a _ => zeroMemory_supports a⟩
theorem witness_PixelRegisterFollowsTick :
    (∃ t, exec (.writeBackgroundColor0 0x03#8) atBorder = .next t) ∧
    (∃ t, exec .tick atForeground = .next t ∧ t.responses = [.pixel 124#10 51#9 0x0E#8]) ∧
    ∃ t, exec .tick atNoMemory = .next t ∧ t.responses = [.error (.readError 0x0400#16)] :=
  ⟨⟨_, rfl⟩, ⟨_, rfl, rfl⟩, ⟨_, rfl, rfl⟩⟩
theorem witness_TickRefusedOutsideLegalRanges : ¬ atIllegal.block.Legal := by decide
theorem witness_WriteUnsupportedFails : 0xD01F#16 ≠ 0xD020#16 ∧ 0xD01F#16 ≠ 0xD021#16 := by decide
theorem witness_WriteSeenByNextTick :
    (atBorder.block.Legal ∧ atBorder.block.inWindow = false) ∧
    atBackground.block.Legal ∧ atBackground.block.inWindow = true ∧
      atBackground.g.read 0x0400#16 = some 0x00#8 ∧ atBackground.g.read 0x1000#16 = some 0x40#8 ∧
      0x40#8 &&& atBackground.block.cursor.pixelMask = 0#8 := by decide
theorem witness_WriteAndTickCommute : ∃ t, exec .tick atBorder = .next t := ⟨_, rfl⟩
theorem witness_OneResponsePerOperation :
    (∃ t, exec .tick atForeground = .next t) ∧ (∃ t, exec .tick atNoMemory = .next t) ∧
    (∃ t, exec (.writeBorderColor 0x03#8) atBorder = .next t) ∧
    (∃ t, exec (.writeBackgroundColor0 0x03#8) atBorder = .next t) ∧
    (Instr.writeUnsupported 0xD022#16 0x05#8).wf = true ∧
    (∃ t, exec (.writeUnsupported 0xD022#16 0x05#8) atBorder = .next t) ∧
    ∃ t, exec (.read 0xD021#16) atBorder = .next t :=
  ⟨⟨_, rfl⟩, ⟨_, rfl⟩, ⟨_, rfl⟩, ⟨_, rfl⟩, by decide, ⟨_, rfl⟩, ⟨_, rfl⟩⟩
theorem witness_ErrorsCommitNothing :
    (∃ t, exec .tick atNoMemory = .next t ∧ t.responses = [.error (.readError 0x0400#16)]) ∧
    ∃ t, exec (.read 0xD020#16) atBorder = .next t ∧
      t.responses = [.error (.unsupportedAddress 0xD020#16 none)] := ⟨⟨_, rfl, rfl⟩, ⟨_, rfl, rfl⟩⟩
theorem witness_RepeatedFailedTickFailsAgain :
    ∃ t, exec .tick atNoMemory = .next t ∧ t.responses = [.error (.readError 0x0400#16)] := ⟨_, rfl, rfl⟩
theorem witness_BlockNeverWritesMemory :
    (∃ t, exec .tick atForeground = .next t) ∧
    ∃ t, step { atForeground with pending := [.reset] } = .next t ∧
      ∀ space a v rest, ({ atForeground with pending := [.reset] } : State).pending ≠
        .memoryChange space a v :: rest :=
  ⟨⟨_, rfl⟩, ⟨_, rfl, fun _ _ _ _ h => by simp at h⟩⟩
theorem witness_ColorsChangeByWriteOrResetOnly :
    (∃ t, step { atBorder with pending := [.command 0x1D02003#26] } = .next t ∧
      t.block.borderColor ≠ atBorder.block.borderColor) ∧
    ∃ t, step { atBorder with pending := [.clock (ports false true true false 0xD021#16)] } = .next t ∧
      t.block.backgroundColor0 ≠ atBorder.block.backgroundColor0 := ⟨⟨_, rfl, by decide⟩, ⟨_, rfl, by decide⟩⟩
/-- For `StepKeepsLegalRanges`, `StepKeepsLockStep` and `StepKeepsMemoryCanonical`. -/
theorem witness_StepKeepsInvariants :
    atForeground.block.Legal ∧ atForeground.block.PixelLegal ∧ atForeground.block.LockStep ∧
    atForeground.MemoryWf ∧ ∃ t, step { atForeground with pending := [.command 0#26] } = .next t :=
  ⟨by decide, by decide, by decide, by decide, _, rfl⟩
theorem witness_StepKeepsSupportedAddresses :
    ∃ t, step { atForeground with pending := [.memoryChange .graphics 0x1008#16 0x00#8] } = .next t := ⟨_, rfl⟩
theorem witness_ReachableStatesMeetInvariant :
    Memory.wf atForeground.g ∧ Memory.wf atForeground.c ∧
    ∃ t, Host.Core.run Sys2Proof.core 2 (State.construct atForeground.g atForeground.c
      [.command 0#26, .clock (ports false true false true 0xD020#16)]) = .next t := ⟨by decide, by decide, _, rfl⟩
theorem witness_LockStepClosedForm :
    ∀ b ∈ [blockAt 124#10 51#9 Cursor.origin, blockAt 443#10 250#9 ⟨960, 39, 7, 0x01#8⟩,
        blockAt 444#10 250#9 Cursor.origin, blockAt 123#10 52#9 ⟨0, 0, 1, 0x80#8⟩],
      b.Legal ∧ b.LockStep := by decide
theorem witness_WindowPixelClosedForm :
    (atForeground.block.Legal ∧ atForeground.block.LockStep ∧ atForeground.block.inWindow = true ∧
      atForeground.g.read 0x0400#16 = some 0x01#8 ∧ atForeground.g.read 0x1008#16 = some 0x80#8 ∧
      (0x80#8).getLsbD 7 = true ∧ atForeground.c.read 0xD800#16 = some 0x0E#8) ∧
    atBackground.block.LockStep ∧ atBackground.g.read 0x0400#16 = some 0x00#8 ∧
      atBackground.g.read 0x1000#16 = some 0x40#8 ∧ (0x40#8).getLsbD 7 = false := by decide
theorem witness_CanonicalMemoriesEqual :
    Memory.wf atForeground.g ∧ ∀ a, atForeground.g.read a = atForeground.g.read a := ⟨by decide, fun _ => rfl⟩
theorem witness_LoadedProgramMeetsInvariant :
    Memory.wf [] ∧ ∃ s, loadProgram [] [] [.setByte .graphics 5#16 1#8, .reset, .tick 2] = some s :=
  ⟨Memory.wf_nil, _, rfl⟩
theorem witness_ScreenYConverts : (40 : Nat) < 41 ∧ (41 : Nat) < 262 ∧ screenY 261 = some 220 := by decide
theorem witness_VisibleAreaPlaced : visible 77 41 = true ∧ visible 491 12 = true ∧ visible 492 12 = false := by
  decide
theorem witness_ClockCycleIsAShortSequence :
    (∃ t, step { atBorder with pending := [.clock (ports true true true true 0xD020#16)] } = .next t) ∧
    step { atBorder with pending := [.clock (ports false true true true 0xD020#16)] } = .refused .writeWithRead ∧
    (∃ u v, exec .tick atBorder = .next u ∧ exec (writeInstr 0xD020#16 0x03#8) u = .next v) ∧
    (∃ u v, exec .tick atBorder = .next u ∧ exec (.read 0xD020#16) u = .next v) ∧
    step { atBorder with pending := [.clock (ports false false false false 0xD020#16)] } = .next atBorder :=
  ⟨⟨_, rfl⟩, rfl, ⟨_, _, rfl, rfl⟩, ⟨_, _, rfl, rfl⟩, rfl⟩
theorem witness_ClockOutputsMatchOperations :
    (∃ t, exec .tick atForeground = .next t) ∧
    (portOut (ports false true true false 0xD022#16) atNoMemory).tickErr = some 0x0400#16 ∧
    (portOut (ports false true true false 0xD022#16) atNoMemory).regErr = true := ⟨⟨_, rfl⟩, by decide, by decide⟩

end Sys2Proof.Tests
end

/-! The scope of the block (00_scope.md): an event runs the operation it spells, an operation has one response, and the
rotation of the pixel mask. -/

namespace Sys2Proof.Machine

open Sys2Proof

/-! ### A step on a command and a step with no event (R8) -/

theorem runCommand_of_decode {w : Cmd} {i : Instr} (h : decode w = .instr i) (s : State) :
    runCommand w s = exec i s := by
  simp [runCommand, h]

theorem step_command {s : State} {w : Cmd} {rest : List Event} {i : Instr}
    (hp : s.pending = .command w :: rest) (hd : decode w = .instr i) :
    step s = exec i { s with pending := rest } :=
  calc step s = runCommand w { s with pending := rest } := step_pending hp
    _ = exec i { s with pending := rest } := runCommand_of_decode hd _

theorem step_idle {s : State} (h : s.pending = []) : step s = .next s.quiet := by
  simp [step, takeNext, h]

/-! ### The word of a table row (R89) -/

/-- A table row that decodes is a 26-bit command word, and the decoder reads that word. -/
theorem decodeTableWord_eq_some {nbits w : Nat} {i : Instr} (h : decodeTableWord nbits w = some i) :
    w % 2 ^ nbits < 2 ^ 26 ∧ decode (BitVec.ofNat 26 (w % 2 ^ nbits)) = .instr i := by
  unfold decodeTableWord at h
  split_ifs at h with hlt
  refine ⟨hlt, ?_⟩
  cases hd : decode (BitVec.ofNat 26 (w % 2 ^ nbits)) with
  | instr j => simpa [hd] using h
  | refused e => simp [hd] at h

theorem presentWord_of_lt {nbits w : Nat} (h : w % 2 ^ nbits < 2 ^ 26) (pending : List Event) :
    presentWord nbits w pending = .command (BitVec.ofNat 26 (w % 2 ^ nbits)) :: pending :=
  if_pos h

/-! ### The response of an operation (R18) -/

theorem State.writeRegister_responses_of_supported {a : Addr} (h : supportedRegister a = true) (s : State)
    (v : Byte) : (s.writeRegister a v).responses = [.ok] := by
  simp [State.writeRegister, h]

theorem State.writeRegister_responses_of_unsupported {a : Addr} (h : supportedRegister a = false) (s : State)
    (v : Byte) : (s.writeRegister a v).responses = [.error (.unsupportedAddress a (some v))] := by
  simp [State.writeRegister, h]

/-- The third WRITE row is the one whose address has no register (R81, R154). -/
theorem wf_writeUnsupported_iff (a : Addr) (v : Byte) :
    (Instr.writeUnsupported a v).wf = true ↔ supportedRegister a = false := by
  simp [Instr.wf, supportedRegister]

theorem exec_tick_responses {s t : State} (h : exec .tick s = .next t) :
    (∃ color, t.responses = [.pixel s.block.xCounter s.block.rasterCounter color]) ∨
      ∃ a, t.responses = [.error (.readError a)] := by
  obtain ⟨-, ⟨color, reads, rfl⟩ | ⟨-, a, reads, rfl⟩⟩ := exec_tick_cases h
  · exact .inl ⟨color, rfl⟩
  · exact .inr ⟨a, rfl⟩

/-! ### The obligations -/

/-- Settles O42, by cases on the operation; a well-formed WRITE_UNSUPPORTED has no register at its address. -/
theorem oneResponsePerOperation : Obligations.OneResponsePerOperation := by
  intro i s t hwf h
  cases i with
  | tick => exact exec_tick_responses h
  | writeBorderColor v =>
    obtain rfl := Host.Outcome.next.inj h
    exact State.writeRegister_responses_of_supported (by decide) s v
  | writeBackgroundColor0 v =>
    obtain rfl := Host.Outcome.next.inj h
    exact State.writeRegister_responses_of_supported (by decide) s v
  | writeUnsupported a v =>
    obtain rfl := Host.Outcome.next.inj h
    exact State.writeRegister_responses_of_unsupported ((wf_writeUnsupported_iff a v).1 hwf) s v
  | read a =>
    obtain rfl := Host.Outcome.next.inj h
    exact s.readRegister_responses a

/-- Settles O8. -/
theorem stepRunsDecodedInstruction : Obligations.StepRunsDecodedInstruction :=
  fun _ _ _ _ hp hd => step_command hp hd

/-- Settles O9: the word is presented as a command, and taking it off again leaves the state as it was. -/
theorem fetchWordRunsNext : Obligations.FetchWordRunsNext := by
  intro s nbits w i h
  obtain ⟨hlt, hd⟩ := decodeTableWord_eq_some h
  have hp : (s.withFetchWord nbits w).pending = .command (BitVec.ofNat 26 (w % 2 ^ nbits)) :: s.pending :=
    presentWord_of_lt hlt s.pending
  exact step_command hp hd

/-- Settles O10. -/
theorem stepIdleHoldsState : Obligations.StepIdleHoldsState :=
  fun _ h => step_idle h

/-- Settles O29: the bits are the definition of `rotr8`, the number is `rotr8_toNat`, and each one-hot byte is
computed. -/
theorem rotateRightByOne : Obligations.RotateRightByOne :=
  ⟨fun m => ⟨rfl, rotr8_toNat m⟩, by decide⟩

end Sys2Proof.Machine

/-! The architectural state (10_state.md): the cursor and the raster position as counters, what every step keeps of
them, and how they move together. -/

namespace Sys2Proof.Machine

open Sys2Proof

/-! ### The fields recovered from a linear index (R29) -/

@[simp] theorem Cursor.ofIndex_graphicsRow_toNat (n : Nat) :
    (Cursor.ofIndex n).graphicsRow.toNat = 40 * (n / 2560 % 25) := by
  simp only [Cursor.ofIndex, BitVec.toNat_ofNat]
  omega

@[simp] theorem Cursor.ofIndex_graphicsColumn_toNat (n : Nat) :
    (Cursor.ofIndex n).graphicsColumn.toNat = n / 8 % 40 := by
  simp only [Cursor.ofIndex, BitVec.toNat_ofNat]
  omega

@[simp] theorem Cursor.ofIndex_characterOffset_toNat (n : Nat) :
    (Cursor.ofIndex n).characterOffset.toNat = n / 320 % 8 := by
  simp only [Cursor.ofIndex, BitVec.toNat_ofNat]
  omega

@[simp] theorem Cursor.ofIndex_pixelMask (n : Nat) : (Cursor.ofIndex n).pixelMask = maskAt (n % 8) := rfl

theorem maskPosition_maskAt : ∀ p < 8, maskPosition (maskAt p) = p := by decide

theorem oneHot_maskAt : ∀ p < 8, OneHot (maskAt p) := by decide

/-- Of the one-hot bytes only the last, `0x01`, has position 7 (R28). -/
theorem maskPosition_lt_seven : ∀ m ∈ oneHotMasks, m ≠ 0x01#8 → maskPosition m < 7 := by decide

/-! ### The cursor is one counter (R29) -/

theorem Cursor.eq_of_fields {k k' : Cursor} (row : k.graphicsRow.toNat = k'.graphicsRow.toNat)
    (column : k.graphicsColumn.toNat = k'.graphicsColumn.toNat)
    (offset : k.characterOffset.toNat = k'.characterOffset.toNat) (mask : k.pixelMask = k'.pixelMask) :
    k = k' := by
  cases k
  cases k'
  simp_all [BitVec.toNat_inj]

theorem Cursor.legal_ofIndex (n : Nat) : (Cursor.ofIndex n).Legal := by
  have hmask : OneHot (Cursor.ofIndex n).pixelMask := oneHot_maskAt (n % 8) (by omega)
  rw [Cursor.legal_iff, Cursor.ofIndex_graphicsRow_toNat, Cursor.ofIndex_graphicsColumn_toNat,
    Cursor.ofIndex_characterOffset_toNat]
  exact ⟨by omega, by omega, by omega, by omega, hmask⟩

theorem Cursor.index_ofIndex {n : Nat} (h : n < 64000) : (Cursor.ofIndex n).index = n := by
  have hmask : maskPosition (Cursor.ofIndex n).pixelMask = n % 8 := maskPosition_maskAt (n % 8) (by omega)
  rw [Cursor.index, hmask, Cursor.ofIndex_graphicsRow_toNat, Cursor.ofIndex_graphicsColumn_toNat,
    Cursor.ofIndex_characterOffset_toNat]
  omega

theorem Cursor.index_lt {k : Cursor} (h : k.Legal) : k.index < 64000 := by
  obtain ⟨-, hrow, hcolumn, hoffset, hmask⟩ := k.legal_iff.1 h
  have hposition := maskPosition_lt _ hmask
  rw [Cursor.index]
  omega

/-- The fields of a legal cursor are the digits of its index. -/
theorem Cursor.ofIndex_index {k : Cursor} (h : k.Legal) : Cursor.ofIndex k.index = k := by
  obtain ⟨hmod, hrow, hcolumn, hoffset, hmask⟩ := k.legal_iff.1 h
  have hposition := maskPosition_lt _ hmask
  have hdigit : k.index % 8 = maskPosition k.pixelMask := by
    rw [Cursor.index]
    omega
  apply Cursor.eq_of_fields
  case row =>
    rw [Cursor.ofIndex_graphicsRow_toNat, Cursor.index]
    omega
  case column =>
    rw [Cursor.ofIndex_graphicsColumn_toNat, Cursor.index]
    omega
  case offset =>
    rw [Cursor.ofIndex_characterOffset_toNat, Cursor.index]
    omega
  case mask => rw [Cursor.ofIndex_pixelMask, hdigit, maskAt_maskPosition _ hmask]

theorem graphicsColumn_succ_toNat {column : BitVec 6} (h : column.toNat < 39) :
    (column + 1#6).toNat = column.toNat + 1 := by
  rw [BitVec.toNat_add, BitVec.toNat_ofNat]
  omega

theorem characterOffset_succ_toNat {offset : BitVec 3} (h : offset.toNat < 7) :
    (offset + 1#3).toNat = offset.toNat + 1 := by
  rw [BitVec.toNat_add, BitVec.toNat_ofNat]
  omega

/-- A cursor step keeps the legal ranges, whichever carries fire. -/
theorem Cursor.legal_step {k : Cursor} (h : k.Legal) : k.step.Legal := by
  obtain ⟨hmod, hrow, hcolumn, hoffset, hmask⟩ := k.legal_iff.1 h
  have hzero : (0#6).toNat < 40 := by decide
  have hzero' : (0#3).toNat < 8 := by decide
  have hfirst : OneHot 0x80#8 := by decide
  obtain ⟨-, hk⟩ | ⟨-, hc, hk⟩ | ⟨-, -, ho, hk⟩ | ⟨-, -, -, hk⟩ := k.step_cases <;> rw [hk, Cursor.legal_iff]
  · exact ⟨hmod, hrow, hcolumn, hoffset, oneHot_rotr8 _ hmask⟩
  · exact ⟨hmod, hrow, by rw [graphicsColumn_succ_toNat hc]; omega, hoffset, hfirst⟩
  · exact ⟨hmod, hrow, hzero, by rw [characterOffset_succ_toNat ho]; omega, hfirst⟩
  · exact ⟨by rw [nextRow_toNat]; omega, by rw [nextRow_toNat]; omega, hzero, hzero', hfirst⟩

/-- A cursor step is the successor of the counter: each carry of R127 to R129 is a carry between two digits. -/
theorem Cursor.index_step {k : Cursor} (h : k.Legal) : k.step.index = (k.index + 1) % 64000 := by
  obtain ⟨hmod, hrow, hcolumn, hoffset, hmask⟩ := k.legal_iff.1 h
  have hfirst : maskPosition 0x80#8 = 0 := rfl
  have hlast : maskPosition 0x01#8 = 7 := rfl
  obtain ⟨hm, hk⟩ | ⟨hm, hc, hk⟩ | ⟨hm, hc, ho, hk⟩ | ⟨hm, hc, ho, hk⟩ := k.step_cases
  · have hposition := maskPosition_lt_seven _ hmask hm
    simp only [hk, Cursor.index, maskPosition_rotr8 _ hmask]
    omega
  · simp only [hk, Cursor.index, hm, hlast, hfirst, graphicsColumn_succ_toNat hc]
    omega
  · simp only [hk, Cursor.index, hm, hlast, hfirst, characterOffset_succ_toNat ho, BitVec.toNat_ofNat]
    omega
  · simp only [hk, Cursor.index, hm, hlast, hfirst, nextRow_toNat, BitVec.toNat_ofNat]
    omega

/-! ### The raster position is one counter (R23) -/

theorem Block.inWindow_iff (b : Block) :
    b.inWindow = true ↔ (51 ≤ b.rasterCounter.toNat ∧ b.rasterCounter.toNat < 251) ∧
      (124 ≤ b.xCounter.toNat ∧ b.xCounter.toNat < 444) := by
  rw [Block.inWindow, Bool.and_eq_true, Block.inDisplayLines_iff, Block.inDisplayX_iff]

section
variable {b : Block} (h : b.Legal)
include h

theorem Block.nextX_lt : b.nextX.toNat < 520 := by
  obtain ⟨hx, -, -⟩ := b.legal_iff.1 h
  rw [Block.nextX_toNat hx]
  split_ifs <;> omega

theorem Block.nextLine_lt : b.nextLine.toNat < 262 := by
  obtain ⟨-, hline, -⟩ := b.legal_iff.1 h
  rw [Block.nextLine_toNat hline]
  split_ifs <;> omega

/-- The advance adds 1 to the position number modulo the frame length. -/
theorem Block.position_advance : b.advance.position = (b.position + 1) % 136240 := by
  obtain ⟨hx, hline, -⟩ := b.legal_iff.1 h
  rw [Block.position_eq, Block.position_eq, Block.advance_xCounter, Block.advance_rasterCounter,
    Block.nextX_toNat hx, Block.nextLine_toNat hline]
  split_ifs with hend hlast
  · rw [hend, hlast]
  · omega
  · omega

theorem Block.position_lt : b.position < 136240 := by
  obtain ⟨hx, hline, -⟩ := b.legal_iff.1 h
  rw [Block.position_eq]
  omega

theorem Block.xCounter_eq_position_mod : b.xCounter = BitVec.ofNat 10 (b.position % 520) := by
  obtain ⟨hx, -, -⟩ := b.legal_iff.1 h
  apply BitVec.eq_of_toNat_eq
  rw [BitVec.toNat_ofNat, Block.position_eq]
  omega

theorem Block.rasterCounter_eq_position_div :
    b.rasterCounter = BitVec.ofNat 9 (b.position / 520 % 262) := by
  obtain ⟨hx, hline, -⟩ := b.legal_iff.1 h
  apply BitVec.eq_of_toNat_eq
  rw [BitVec.toNat_ofNat, Block.position_eq]
  omega

end

/-! ### The window positions of a frame (R39) -/

theorem windowTicksBefore_of_lt {line : Nat} (h : line < 51) (x : Nat) : windowTicksBefore line x = 0 :=
  if_pos h

theorem windowTicksBefore_of_display {line : Nat} (h : 51 ≤ line) (h' : line < 251) (x : Nat) :
    windowTicksBefore line x = 320 * (line - 51) + min (x - 124) 320 := by
  rw [windowTicksBefore, if_neg (Nat.not_lt.2 h), if_pos h']

theorem windowTicksBefore_of_le {line : Nat} (h : 251 ≤ line) (x : Nat) :
    windowTicksBefore line x = 320 * 200 := by
  have h51 : ¬ line < 51 := by omega
  rw [windowTicksBefore, if_neg h51, if_neg (Nat.not_lt.2 h)]

/-- The lines above the window, of the window, and below it. -/
theorem lt_or_display_or_le (line : Nat) : line < 51 ∨ (51 ≤ line ∧ line < 251) ∨ 251 ≤ line := by
  omega

/-- Within a line the count steps at the window positions only. -/
theorem windowTicksBefore_succ (line x : Nat) :
    windowTicksBefore line (x + 1) = windowTicksBefore line x +
      if (51 ≤ line ∧ line < 251) ∧ (124 ≤ x ∧ x < 444) then 1 else 0 := by
  obtain hl | hl | hl := lt_or_display_or_le line
  · rw [windowTicksBefore_of_lt hl, windowTicksBefore_of_lt hl, if_neg (by omega)]
  · rw [windowTicksBefore_of_display hl.1 hl.2, windowTicksBefore_of_display hl.1 hl.2]
    split_ifs <;> omega
  · rw [windowTicksBefore_of_le hl, windowTicksBefore_of_le hl, if_neg (by omega)]

/-- The count is the same at the end of a line and at the start of the next. -/
theorem windowTicksBefore_lineEnd (line : Nat) :
    windowTicksBefore (line + 1) 0 = windowTicksBefore line 519 := by
  obtain hl | rfl | hl | rfl | hl : line < 50 ∨ line = 50 ∨ (51 ≤ line ∧ line < 250) ∨ line = 250 ∨ 251 ≤ line := by
    omega
  · rw [windowTicksBefore_of_lt (by omega), windowTicksBefore_of_lt (by omega)]
  · rfl
  · rw [windowTicksBefore_of_display (by omega) (by omega), windowTicksBefore_of_display hl.1 (by omega)]
    omega
  · rfl
  · rw [windowTicksBefore_of_le (by omega), windowTicksBefore_of_le hl]

/-- An advance passes one window position if the block stands at one, and none otherwise; at the end of a frame the
count goes from 64000 to 0. -/
theorem Block.windowTicksBefore_next {b : Block} (h : b.Legal) :
    windowTicksBefore b.nextLine.toNat b.nextX.toNat % 64000 =
      (windowTicksBefore b.rasterCounter.toNat b.xCounter.toNat + if b.inWindow then 1 else 0) % 64000 := by
  obtain ⟨hx, hline, -⟩ := b.legal_iff.1 h
  rw [Block.nextX_toNat hx, Block.nextLine_toNat hline]
  by_cases hend : b.xCounter.toNat = 519
  · have hout : ¬ b.inWindow = true := by
      rw [Block.inWindow_iff]
      omega
    rw [if_pos hend, if_pos hend, if_neg hout, hend]
    split_ifs with hlast
    · rw [hlast]
      rfl
    · rw [windowTicksBefore_lineEnd, Nat.add_zero]
  · rw [if_neg hend, if_neg hend, windowTicksBefore_succ]
    simp only [Block.inWindow_iff]

/-- In the window the count is linear in line and x. -/
theorem Block.windowTicksBefore_inside {b : Block} (hw : b.inWindow = true) :
    windowTicksBefore b.rasterCounter.toNat b.xCounter.toNat % 64000 =
      320 * (b.rasterCounter.toNat - 51) + (b.xCounter.toNat - 124) := by
  obtain ⟨⟨h51, h251⟩, h124, h444⟩ := b.inWindow_iff.1 hw
  rw [windowTicksBefore_of_display h51 h251]
  omega

/-- Outside the window whole lines of it have been passed. -/
theorem Block.windowTicksBefore_outside {b : Block} (hw : b.inWindow = false) :
    windowTicksBefore b.rasterCounter.toNat b.xCounter.toNat % 64000 % 320 = 0 := by
  have hout : ¬ ((51 ≤ b.rasterCounter.toNat ∧ b.rasterCounter.toNat < 251) ∧
      (124 ≤ b.xCounter.toNat ∧ b.xCounter.toNat < 444)) := by
    rw [← Block.inWindow_iff, hw]
    exact Bool.false_ne_true
  obtain hl | hl | hl := lt_or_display_or_le b.rasterCounter.toNat
  · rw [windowTicksBefore_of_lt hl]
  · rw [windowTicksBefore_of_display hl.1 hl.2]
    omega
  · rw [windowTicksBefore_of_le hl]

/-- From the last window position of a frame to the first of the next the count is 0 modulo 64000. -/
theorem windowTicksBefore_origin {line x : Nat}
    (h : line < 51 ∨ (line = 51 ∧ x ≤ 124) ∨ (line = 250 ∧ 444 ≤ x) ∨ 251 ≤ line) :
    windowTicksBefore line x % 64000 = 0 := by
  obtain hl | ⟨rfl, hx⟩ | ⟨rfl, hx⟩ | hl := h
  · rw [windowTicksBefore_of_lt hl]
  · rw [windowTicksBefore_of_display (by omega) (by omega)]
    omega
  · rw [windowTicksBefore_of_display (by omega) (by omega)]
    omega
  · rw [windowTicksBefore_of_le hl]

/-! ### The lock step (R39) -/

theorem Block.lockStepCursor_eq (b : Block) :
    b.lockStepCursor = Cursor.ofIndex (windowTicksBefore b.rasterCounter.toNat b.xCounter.toNat % 64000) := rfl

theorem Cursor.step_ofIndex {n : Nat} (h : n < 64000) :
    (Cursor.ofIndex n).step = Cursor.ofIndex ((n + 1) % 64000) := by
  have hl := Cursor.legal_ofIndex n
  rw [← Cursor.ofIndex_index (Cursor.legal_step hl), Cursor.index_step hl, Cursor.index_ofIndex h]

/-- In the window the cursor steps with the position, outside it neither the cursor nor the count moves. -/
theorem Block.LockStep.commitPixel {b : Block} (h : b.Legal) (hlock : b.LockStep) (color : Byte) :
    (b.commitPixel color (if b.inWindow then b.cursor.step else b.cursor)).LockStep := by
  rw [Block.LockStep, Block.commitPixel_cursor, Block.lockStepCursor_eq, Block.commitPixel_xCounter,
    Block.commitPixel_rasterCounter, Block.windowTicksBefore_next h]
  rw [Block.LockStep, Block.lockStepCursor_eq] at hlock
  rw [hlock]
  split_ifs
  · rw [Cursor.step_ofIndex (Nat.mod_lt _ (by decide)), Nat.mod_add_mod]
  · rfl

/-! ### What an operation does to the block -/

/-- A TICK that produced a pixel committed it (R100, R104). -/
theorem exec_tick_success {s t : State} (h : exec .tick s = .next t) (hv : t.block.pixValid = true) :
    s.block.Legal ∧ ∃ color,
      t.block = s.block.commitPixel color (if s.block.inWindow then s.block.cursor.step else s.block.cursor) ∧
      t.responses = [.pixel s.block.xCounter s.block.rasterCounter color] := by
  obtain ⟨hl, ⟨color, reads, rfl⟩ | ⟨-, a, reads, rfl⟩⟩ := exec_tick_cases h
  · exact ⟨hl, color, rfl, rfl⟩
  · simp at hv

/-- WRITE and READ change nothing of the block but the colour registers (R150, R153). -/
theorem exec_block_of_ne_tick {i : Instr} {s t : State} (hi : i ≠ .tick) (h : exec i s = .next t) :
    ∃ border background,
      t.block = { s.block with borderColor := border, backgroundColor0 := background } := by
  obtain rfl | ⟨a, v, hw⟩ | ⟨a, -, hr⟩ := exec_cases i s
  · exact absurd rfl hi
  · obtain rfl := Host.Outcome.next.inj (hw.symm.trans h)
    obtain ⟨-, hw⟩ | ⟨-, hw⟩ := s.writeRegister_cases a v
    · rw [hw]
      unfold Block.storeRegister
      split_ifs
      · exact ⟨v, s.block.backgroundColor0, rfl⟩
      · exact ⟨s.block.borderColor, v, rfl⟩
      · exact ⟨s.block.borderColor, s.block.backgroundColor0, rfl⟩
    · rw [hw]
      exact ⟨s.block.borderColor, s.block.backgroundColor0, rfl⟩
  · obtain rfl := Host.Outcome.next.inj (hr.symm.trans h)
    exact ⟨s.block.borderColor, s.block.backgroundColor0, rfl⟩

/-- No operation writes a memory (R61). -/
theorem exec_memories {i : Instr} {s t : State} (h : exec i s = .next t) : t.g = s.g ∧ t.c = s.c := by
  obtain rfl | ⟨a, v, hw⟩ | ⟨a, -, hr⟩ := exec_cases i s
  · obtain ⟨-, ⟨color, reads, rfl⟩ | ⟨-, a, reads, rfl⟩⟩ := exec_tick_cases h <;> exact ⟨rfl, rfl⟩
  · obtain rfl := Host.Outcome.next.inj (hw.symm.trans h)
    obtain ⟨-, hw⟩ | ⟨-, hw⟩ := s.writeRegister_cases a v <;> rw [hw] <;> exact ⟨rfl, rfl⟩
  · obtain rfl := Host.Outcome.next.inj (hr.symm.trans h)
    exact ⟨rfl, rfl⟩

/-! ### What every step keeps -/

/-- A run that gives a state has taken its first step. -/
theorem run_succ_next {M : Host.Core} {n : Nat} {s t : M.State} (h : M.run (n + 1) s = .next t) :
    ∃ u, M.step s = .next u ∧ M.run n u = .next t := by
  unfold Host.Core.run at h
  split at h
  · next u hu => exact ⟨u, hu, h⟩
  · contradiction
  · contradiction

/-- A property of states that speaks of the block and the memories only, and that every operation, a reset and a memory
change keep. -/
structure State.Kept (P : State → Prop) : Prop where
  ofRecord : ∀ s pending responses reads, P s →
    P { s with pending := pending, responses := responses, reads := reads }
  ofExec : ∀ {i s t}, exec i s = .next t → P s → P t
  ofReset : ∀ s, P s → P s.applyReset
  ofChange : ∀ {space a v s t}, changeMemory space a v s = .next t → P s → P t

section
variable {P : State → Prop} (hP : State.Kept P)
include hP

theorem State.Kept.clockCycle {p : PortIn} {s t : State} (h : clockCycle p s = .next t) (hs : P s) : P t := by
  obtain ⟨-, rfl⟩ | ⟨-, u, hu, hreg⟩ := clockCycle_next h
  · exact hP.ofReset s hs
  · have hPu : P u := by
      split_ifs at hu
      · exact hP.ofExec hu hs
      · rw [hu]
        exact hP.ofRecord s _ _ _ hs
    obtain ⟨-, v, hv, rfl⟩ | ⟨-, -, v, hv, rfl⟩ | ⟨-, -, rfl⟩ := hreg
    · exact hP.ofRecord v _ _ _ (hP.ofExec hv hPu)
    · exact hP.ofRecord v _ _ _ (hP.ofExec hv hPu)
    · exact hPu

theorem State.Kept.runEvent {e : Event} {s t : State} (h : runEvent e s = .next t) (hs : P s) : P t := by
  cases e with
  | command w =>
    obtain ⟨i, -, hi⟩ := runCommand_next h
    exact hP.ofExec hi hs
  | reset =>
    obtain rfl := Host.Outcome.next.inj h
    exact hP.ofReset s hs
  | memoryChange space a v => exact hP.ofChange h hs
  | clock p => exact hP.clockCycle h hs

theorem State.Kept.step {s t : State} (h : step s = .next t) (hs : P s) : P t := by
  obtain ⟨-, rfl⟩ | ⟨e, rest, -, he⟩ := step_cases h
  · exact hP.ofRecord s _ _ _ hs
  · exact hP.runEvent he (hP.ofRecord s _ _ _ hs)

theorem State.Kept.run {n : Nat} {s t : State} (h : Host.Core.run Sys2Proof.core n s = .next t) (hs : P s) :
    P t := by
  induction n generalizing s with
  | zero =>
    obtain rfl := Host.Outcome.next.inj h
    exact hs
  | succ n ih =>
    obtain ⟨u, hu, ht⟩ := run_succ_next h
    exact ih ht (hP.step hu hs)

end

/-- A property of blocks that holds at reset and that a committed pixel, a dropped pixel and a register write keep. -/
structure Block.Kept (P : Block → Prop) : Prop where
  ofReset : P Block.reset
  ofCommit : ∀ {b} color, b.Legal → P b →
    P (b.commitPixel color (if b.inWindow then b.cursor.step else b.cursor))
  ofDrop : ∀ {b}, P b → P b.dropPixel
  ofColors : ∀ {b} border background, P b → P { b with borderColor := border, backgroundColor0 := background }

theorem Block.Kept.exec {P : Block → Prop} (hP : Block.Kept P) {i : Instr} {s t : State}
    (h : exec i s = .next t) (hs : P s.block) : P t.block := by
  by_cases hi : i = .tick
  · subst hi
    obtain ⟨hl, ⟨color, reads, rfl⟩ | ⟨-, a, reads, rfl⟩⟩ := exec_tick_cases h
    · exact hP.ofCommit color hl hs
    · exact hP.ofDrop hs
  · obtain ⟨border, background, ht⟩ := exec_block_of_ne_tick hi h
    rw [ht]
    exact hP.ofColors border background hs

/-- What the operations keep of the block is kept by every step. -/
theorem Block.Kept.toState {P : Block → Prop} (hP : Block.Kept P) : State.Kept fun s => P s.block where
  ofRecord _ _ _ _ hs := hs
  ofExec h hs := hP.exec h hs
  ofReset _ _ := hP.ofReset
  ofChange h hs := by
    obtain ⟨-, rfl⟩ := changeMemory_next h
    rwa [State.quiet_block, State.setMemory_block]

/-! ### The three invariants of the block and the form of the memories -/

theorem Block.legal_reset : Block.reset.Legal := by decide

theorem Block.pixelLegal_reset : Block.reset.PixelLegal := by decide

theorem Block.lockStep_reset : Block.reset.LockStep := rfl

/-- The legal ranges of position and cursor (R38). -/
theorem Block.kept_legal : Block.Kept Block.Legal where
  ofReset := Block.legal_reset
  ofCommit color h _ := by
    have ⟨_, _, hcursor⟩ := h
    refine ⟨Block.nextX_lt h, Block.nextLine_lt h, ?_⟩
    rw [Block.commitPixel_cursor]
    split_ifs
    · exact Cursor.legal_step hcursor
    · exact hcursor
  ofDrop h := h
  ofColors _ _ h := h

/-- The legal ranges of the pixel register: it is loaded with a legal position (R166). -/
theorem Block.kept_pixelLegal : Block.Kept Block.PixelLegal where
  ofReset := Block.pixelLegal_reset
  ofCommit _ h _ := by
    obtain ⟨hx, hline, -⟩ := h
    exact ⟨hx, hline⟩
  ofDrop h := h
  ofColors _ _ h := h

/-- The lock step of cursor and position (R39). -/
theorem Block.kept_lockStep : Block.Kept Block.LockStep where
  ofReset := Block.lockStep_reset
  ofCommit color h hlock := hlock.commitPixel h color
  ofDrop h := h
  ofColors _ _ h := h

/-- The canonical form of both memories. -/
theorem State.kept_memoryWf : State.Kept State.MemoryWf where
  ofRecord _ _ _ _ hs := hs
  ofExec h hs := by
    obtain ⟨hg, hc⟩ := exec_memories h
    rwa [State.MemoryWf, hg, hc]
  ofReset _ hs := hs
  ofChange {space a v s t} h hs := by
    obtain ⟨-, rfl⟩ := changeMemory_next h
    obtain ⟨hg, hc⟩ := hs
    cases space with
    | graphics => exact ⟨Memory.wf_change hg a v, hc⟩
    | color => exact ⟨hg, Memory.wf_change hc a v⟩

theorem State.construct_inv {g c : Memory} (hg : g.wf) (hc : c.wf) (events : List Event) :
    (State.construct g c events).Inv :=
  ⟨Block.legal_reset, Block.pixelLegal_reset, Block.lockStep_reset, hg, hc⟩

/-! ### Successful TICKs in a row (R110) -/

theorem tickOk_eq_some {s t : State} (h : tickOk s = some t) :
    exec .tick s = .next t ∧ t.block.pixValid = true := by
  unfold tickOk at h
  split at h
  · next u hu =>
    split_ifs at h with hv
    obtain rfl := Option.some.inj h
    exact ⟨hu, hv⟩
  · contradiction
  · contradiction

theorem ticksOk_succ_eq_some {n : Nat} {s t : State} (h : ticksOk (n + 1) s = some t) :
    ∃ u, tickOk s = some u ∧ ticksOk n u = some t := by
  rw [ticksOk] at h
  split at h
  · next u hu => exact ⟨u, hu, h⟩
  · contradiction

/-- The last of a row of TICKs. -/
theorem ticksOk_succ_last {n : Nat} {s t : State} (h : ticksOk (n + 1) s = some t) :
    ∃ u, ticksOk n s = some u ∧ tickOk u = some t := by
  induction n generalizing s with
  | zero =>
    obtain ⟨u, hu, ht⟩ := ticksOk_succ_eq_some h
    obtain rfl := Option.some.inj ht
    exact ⟨s, rfl, hu⟩
  | succ n ih =>
    obtain ⟨u, hu, ht⟩ := ticksOk_succ_eq_some h
    obtain ⟨w, hw, hlast⟩ := ih ht
    exact ⟨w, by rw [ticksOk, hu]; exact hw, hlast⟩

theorem exec_tick_position {s t : State} (h : exec .tick s = .next t) (hv : t.block.pixValid = true) :
    t.block.position = (s.block.position + 1) % 136240 := by
  obtain ⟨hl, color, hb, -⟩ := exec_tick_success h hv
  rw [hb]
  exact Block.position_advance hl

theorem ticksOk_position {n : Nat} {s t : State} (hs : s.block.Legal) (h : ticksOk n s = some t) :
    t.block.position = (s.block.position + n) % 136240 := by
  induction n generalizing t with
  | zero =>
    obtain rfl := Option.some.inj h
    rw [Nat.add_zero, Nat.mod_eq_of_lt (Block.position_lt hs)]
  | succ n ih =>
    obtain ⟨u, hu, hlast⟩ := ticksOk_succ_last h
    obtain ⟨ht, hv⟩ := tickOk_eq_some hlast
    rw [exec_tick_position ht hv, ih hu, Nat.mod_add_mod, Nat.add_assoc]

/-! ### The obligations -/

/-- Settles O47: both ranges are kept by the operations, a reset and a memory change, so by every step. -/
theorem stepKeepsLegalRanges : Obligations.StepKeepsLegalRanges :=
  fun _ _ hl hp h => ⟨Block.kept_legal.toState.step h hl, Block.kept_pixelLegal.toState.step h hp⟩

/-- Settles O48: a committed pixel moves cursor and position together, and nothing but a reset moves either otherwise.
The legal ranges that this needs are those a TICK tests for itself. -/
theorem stepKeepsLockStep : Obligations.StepKeepsLockStep :=
  fun _ _ _ hlock h => Block.kept_lockStep.toState.step h hlock

/-- Settles O23: the advance of a committed pixel is the successor of the position number, and WRITE and READ change
the colour registers only. -/
theorem tickCountsPosition : Obligations.TickCountsPosition := by
  refine ⟨fun s t h hv => exec_tick_position h hv, fun i s t hi h => ?_⟩
  obtain ⟨border, background, hb⟩ := exec_block_of_ne_tick hi h
  rw [hb]
  rfl

/-- Settles O24, by induction on the number of TICKs: the last one reports the position that those before it
reached. -/
theorem positionNeverDrifts : Obligations.PositionNeverDrifts := by
  refine fun n s t hs h => ⟨ticksOk_position hs h, fun hn => ?_⟩
  cases n with
  | zero => exact absurd hn (Nat.lt_irrefl 0)
  | succ n =>
    obtain ⟨u, hu, hlast⟩ := ticksOk_succ_last h
    obtain ⟨ht, hv⟩ := tickOk_eq_some hlast
    obtain ⟨hl, color, -, hresponse⟩ := exec_tick_success ht hv
    have hx : u.block.position % 520 = (s.block.position + n) % 520 := by
      rw [ticksOk_position hs hu]
      omega
    have hline : u.block.position / 520 % 262 = (s.block.position + n) / 520 % 262 := by
      rw [ticksOk_position hs hu]
      omega
    rw [hresponse, Block.xCounter_eq_position_mod hl, Block.rasterCounter_eq_position_div hl, hx, hline,
      Nat.add_sub_cancel]
    exact ⟨color, rfl⟩

/-- Settles O28: digits and index determine each other, and a committed window pixel steps the cursor. -/
theorem cursorIsMixedRadixCounter : Obligations.CursorIsMixedRadixCounter := by
  refine ⟨fun k hk => ⟨Cursor.index_lt hk, Cursor.ofIndex_index hk⟩,
    fun n hn => ⟨Cursor.legal_ofIndex n, Cursor.index_ofIndex hn⟩, fun s t h hw hv => ?_⟩
  obtain ⟨⟨-, -, hcursor⟩, color, hb, -⟩ := exec_tick_success h hv
  rw [hb, Block.commitPixel_cursor, if_pos hw]
  exact Cursor.index_step hcursor

/-- Settles O51: the parts of the invariant hold of the constructed state and every step of the run keeps them. -/
theorem reachableStatesMeetInvariant : Obligations.ReachableStatesMeetInvariant := by
  intro g c events n t hg hc h
  obtain ⟨hlegal, hpixel, hlock, hmemory⟩ := State.construct_inv hg hc events
  exact ⟨Block.kept_legal.toState.run h hlegal, Block.kept_pixelLegal.toState.run h hpixel,
    Block.kept_lockStep.toState.run h hlock, State.kept_memoryWf.run h hmemory⟩

/-- Settles O52: the digits of the number of window positions passed in the frame, which is `320 * (line - 51) + x - 124`
in the window, a multiple of 320 outside it, and 0 or 64000 where the cursor is at its origin. -/
theorem lockStepClosedForm : Obligations.LockStepClosedForm := by
  intro b _ hlock
  rw [Block.LockStep, Block.lockStepCursor_eq] at hlock
  rw [hlock]
  refine ⟨fun hw => ?_, fun hw => ?_, fun horigin => ?_⟩
  · obtain ⟨⟨-, h251⟩, -, h444⟩ := b.inWindow_iff.1 hw
    have hcount := Block.windowTicksBefore_inside hw
    have hdigit : (320 * (b.rasterCounter.toNat - 51) + (b.xCounter.toNat - 124)) % 8 =
        (b.xCounter.toNat - 124) % 8 := by omega
    rw [hcount, Cursor.ofIndex_graphicsColumn_toNat, Cursor.ofIndex_characterOffset_toNat,
      Cursor.ofIndex_graphicsRow_toNat, Cursor.ofIndex_pixelMask, hdigit]
    exact ⟨by omega, rfl, by omega, by omega⟩
  · have hcount := Block.windowTicksBefore_outside hw
    have hdigit : windowTicksBefore b.rasterCounter.toNat b.xCounter.toNat % 64000 % 8 = 0 := by omega
    rw [Cursor.ofIndex_pixelMask, Cursor.ofIndex_graphicsColumn_toNat, hdigit]
    exact ⟨rfl, by omega⟩
  · rw [windowTicksBefore_origin horigin]
    rfl

/-- Settles O14. -/
theorem resetStateIsAsSpecified : Obligations.ResetStateIsAsSpecified := rfl

/-- Settles O15: the reset state is the one constructed over empty memories with no events. -/
theorem constructedStateMeetsInvariant : Obligations.ConstructedStateMeetsInvariant :=
  ⟨State.construct_inv Memory.wf_nil Memory.wf_nil [], fun _ _ events hg hc => State.construct_inv hg hc events⟩

end Sys2Proof.Machine

/-! The memories (20_memory.md): which addresses an operation reads and in which order, that what lies outside the
three regions cannot matter, and that only another party changes a byte, at a supported address. -/

namespace Sys2Proof.Machine

open Sys2Proof

/-! ### The addresses of the three reads lie in the regions (R53, R54) -/

section
variable {k : Cursor} (hk : k.Legal)
include hk

/-- Row offset and column of a legal cursor name one of the 1000 cells (R25). -/
theorem Cursor.cell_lt : k.cell < 1000 := by
  obtain ⟨hmod, hrow, hcolumn, -, -⟩ := k.legal_iff.1 hk
  unfold Cursor.cell
  omega

theorem Cursor.matrixAddr_inRegions : InGraphicsRegions k.matrixAddr := by
  have hcell := Cursor.cell_lt hk
  have haddr : k.matrixAddr.toNat = 0x0400 + k.cell :=
    Nat.mod_eq_of_lt (show 0x0400 + k.cell < 2 ^ 16 by omega)
  exact .inl ⟨by omega, by omega⟩

theorem Cursor.colorAddr_inRegion : InColorRegion k.colorAddr := by
  have hcell := Cursor.cell_lt hk
  have haddr : k.colorAddr.toNat = 0xD800 + k.cell :=
    Nat.mod_eq_of_lt (show 0xD800 + k.cell < 2 ^ 16 by omega)
  exact ⟨by omega, by omega⟩

end

/-- The bitmap table covers every glyph index and sub-row, so this needs no legal range (R53). -/
theorem Cursor.bitmapAddr_inRegions (k : Cursor) (characterIndex : Byte) :
    InGraphicsRegions (k.bitmapAddr characterIndex) := by
  have hindex := characterIndex.isLt
  have hoffset := k.characterOffset.isLt
  have haddr : (k.bitmapAddr characterIndex).toNat =
      0x1000 + 8 * characterIndex.toNat + k.characterOffset.toNat :=
    Nat.mod_eq_of_lt (show 0x1000 + 8 * characterIndex.toNat + k.characterOffset.toNat < 2 ^ 16 by omega)
  exact .inr ⟨by omega, by omega⟩

/-! ### The reads of a result -/

/-- The reads a result records, whether it is a value or a failure (R59). -/
def ReadResult.log {α : Type} : ReadResult α → List Access
  | .value _ reads => reads
  | .failed _ reads => reads

@[simp] theorem ReadResult.log_value {α : Type} (v : α) (reads : List Access) :
    (ReadResult.value v reads).log = reads := rfl

@[simp] theorem ReadResult.log_failed {α : Type} (a : Addr) (reads : List Access) :
    (ReadResult.failed a reads : ReadResult α).log = reads := rfl

/-- A TICK records the reads of its colour result. -/
@[simp] theorem State.tickWith_reads (s : State) (r : ReadResult (Byte × Cursor)) :
    (s.tickWith r).reads = r.log := by
  cases r <;> rfl

theorem isForeground_iff (row mask : Byte) : isForeground row mask = true ↔ row &&& mask ≠ 0#8 := by
  simp [isForeground]

theorem isForeground_eq_false_iff (row mask : Byte) : isForeground row mask = false ↔ row &&& mask = 0#8 := by
  simp [isForeground]

/-- A set bit costs the third read, whether or not colour memory answers (R59, R125). -/
theorem resolve_foreground_log {b : Block} {g c : Memory} {i row : Byte}
    (hmatrix : g.read b.cursor.matrixAddr = some i) (hbitmap : g.read (b.cursor.bitmapAddr i) = some row)
    (hbit : isForeground row b.cursor.pixelMask = true) :
    (resolve b g c).log =
      [⟨.graphics, b.cursor.matrixAddr⟩, ⟨.graphics, b.cursor.bitmapAddr i⟩, ⟨.color, b.cursor.colorAddr⟩] := by
  cases hcolor : c.read b.cursor.colorAddr with
  | none => rw [resolve_color_failed hmatrix hbitmap hbit hcolor, ReadResult.log_failed]
  | some v => rw [resolve_foreground hmatrix hbitmap hbit hcolor, ReadResult.log_value]

/-- RESOLVE reads matrix, bitmap and colour in that order and may stop after any of them (R59). -/
theorem resolve_log_prefix (b : Block) (g c : Memory) : ∃ i, (resolve b g c).log <+:
    [⟨.graphics, b.cursor.matrixAddr⟩, ⟨.graphics, b.cursor.bitmapAddr i⟩, ⟨.color, b.cursor.colorAddr⟩] := by
  obtain h1 | ⟨i, h1, h2⟩ | ⟨i, row, h1, h2, h3⟩ | ⟨i, row, h1, h2, h3, -⟩ | ⟨i, row, v, h1, h2, h3, -⟩ :=
    resolve_cases b g c
  · exact ⟨0, by simp [resolve_matrix_failed h1]⟩
  · exact ⟨i, by simp [resolve_bitmap_failed h1 h2]⟩
  · exact ⟨i, by simp [resolve_background h1 h2 h3]⟩
  · exact ⟨i, by simp [resolve_foreground_log h1 h2 h3]⟩
  · exact ⟨i, by simp [resolve_foreground_log h1 h2 h3]⟩

/-! ### The reads of an operation (R59) -/

theorem exec_tick_outside {s t : State} (hw : s.block.inWindow = false) (h : exec .tick s = .next t) :
    t = s.tickWith (.value (s.block.borderColor, s.block.cursor) []) := by
  rw [(exec_tick_next.1 h).2, tickColor_outside hw]

theorem exec_tick_inside {s t : State} (hw : s.block.inWindow = true) (h : exec .tick s = .next t) :
    t = s.tickWith (resolve s.block s.g s.c) := by
  rw [(exec_tick_next.1 h).2, tickColor_inside hw]

theorem State.writeRegister_reads (s : State) (a : Addr) (v : Byte) : (s.writeRegister a v).reads = [] := by
  obtain ⟨-, hw⟩ | ⟨-, hw⟩ := s.writeRegister_cases a v <;> rw [hw]

theorem exec_reads_of_ne_tick {i : Instr} {s t : State} (hi : i ≠ .tick) (h : exec i s = .next t) :
    t.reads = [] := by
  obtain rfl | ⟨a, v, hw⟩ | ⟨a, -, hr⟩ := exec_cases i s
  · exact absurd rfl hi
  · obtain rfl := Host.Outcome.next.inj (hw.symm.trans h)
    exact s.writeRegister_reads a v
  · obtain rfl := Host.Outcome.next.inj (hr.symm.trans h)
    exact s.readRegister_reads a

/-- Only a window TICK reads anything, and then what RESOLVE reads. -/
theorem exec_reads_cases {i : Instr} {s t : State} (h : exec i s = .next t) :
    t.reads = [] ∨ (s.block.Legal ∧ t.reads = (resolve s.block s.g s.c).log) := by
  by_cases hi : i = .tick
  · subst hi
    cases hw : s.block.inWindow with
    | false => exact .inl (by rw [exec_tick_outside hw h, State.tickWith_reads, ReadResult.log_value])
    | true => exact .inr ⟨(exec_tick_next.1 h).1, by rw [exec_tick_inside hw h, State.tickWith_reads]⟩
  · exact .inl (exec_reads_of_ne_tick hi h)

/-! ### A TICK depends on the memories at the addresses it reads only -/

theorem memRead_congr {sp : Space} {m m' : Memory} {a : Addr} (h : m'.read a = m.read a) :
    memRead sp m' a = memRead sp m a := by
  unfold memRead
  rw [h]

theorem fetchBitmapRow_congr {k : Cursor} {g g' : Memory} (hk : k.Legal)
    (hg : ∀ a, InGraphicsRegions a → g'.read a = g.read a) : fetchBitmapRow k g' = fetchBitmapRow k g := by
  have hbitmap : ∀ i, memRead .graphics g' (k.bitmapAddr i) = memRead .graphics g (k.bitmapAddr i) :=
    fun i => memRead_congr (hg _ (k.bitmapAddr_inRegions i))
  simp only [fetchBitmapRow, memRead_congr (hg _ (Cursor.matrixAddr_inRegions hk)), hbitmap]

theorem windowColor_congr {b : Block} {c c' : Memory} (hk : b.cursor.Legal)
    (hc : ∀ a, InColorRegion a → c'.read a = c.read a) (row : Byte) :
    windowColor b c' row = windowColor b c row := by
  simp only [windowColor, memRead_congr (hc _ (Cursor.colorAddr_inRegion hk))]

theorem tickColor_congr {b : Block} {g g' c c' : Memory} (hk : b.cursor.Legal)
    (hg : ∀ a, InGraphicsRegions a → g'.read a = g.read a) (hc : ∀ a, InColorRegion a → c'.read a = c.read a) :
    tickColor b g' c' = tickColor b g c := by
  simp only [tickColor, resolve, fetchBitmapRow_congr hk hg, windowColor_congr hk hc]

/-- What a colour result does to the state does not look at the memories. -/
theorem State.tickWith_of_memories (s : State) (g c : Memory) (r : ReadResult (Byte × Cursor)) :
    State.tickWith { s with g := g, c := c } r = { s.tickWith r with g := g, c := c } := by
  cases r <;> rfl

/-! ### What changes a memory (R61, R62) -/

/-- An operation acts on the block and answers; memories and events stay (R61). -/
theorem exec_frame {i : Instr} {s t : State} (h : exec i s = .next t) :
    ∃ block responses reads, t = { s with block := block, responses := responses, reads := reads } := by
  obtain rfl | ⟨a, v, hw⟩ | ⟨a, -, hr⟩ := exec_cases i s
  · obtain ⟨-, ⟨color, reads, ht⟩ | ⟨-, a, reads, ht⟩⟩ := exec_tick_cases h
    · exact ⟨_, _, _, ht⟩
    · exact ⟨_, _, _, ht⟩
  · obtain rfl := Host.Outcome.next.inj (hw.symm.trans h)
    obtain ⟨-, ht⟩ | ⟨-, ht⟩ := s.writeRegister_cases a v
    · exact ⟨_, _, _, ht⟩
    · exact ⟨_, _, _, ht⟩
  · obtain rfl := Host.Outcome.next.inj (hr.symm.trans h)
    exact ⟨_, _, _, rfl⟩

theorem clockCycle_memories {p : PortIn} {s t : State} (h : clockCycle p s = .next t) : t.g = s.g ∧ t.c = s.c := by
  obtain ⟨-, rfl⟩ | ⟨-, u, hu, hreg⟩ := clockCycle_next h
  · exact ⟨rfl, rfl⟩
  · obtain ⟨hg, hc⟩ : u.g = s.g ∧ u.c = s.c := by
      split_ifs at hu
      · exact exec_memories hu
      · rw [hu]
        exact ⟨rfl, rfl⟩
    rw [← hg, ← hc]
    obtain ⟨-, v, hv, rfl⟩ | ⟨-, -, v, hv, rfl⟩ | ⟨-, -, rfl⟩ := hreg
    · exact (exec_memories hv :)
    · exact (exec_memories hv :)
    · exact ⟨rfl, rfl⟩

/-- Of the events only another party's change touches a memory. -/
theorem runEvent_memories {e : Event} {s t : State} (he : ∀ space a v, e ≠ .memoryChange space a v)
    (h : runEvent e s = .next t) : t.g = s.g ∧ t.c = s.c := by
  cases e with
  | command w =>
    obtain ⟨i, -, hi⟩ := runCommand_next h
    exact exec_memories hi
  | reset =>
    obtain rfl := Host.Outcome.next.inj h
    exact ⟨rfl, rfl⟩
  | memoryChange space a v => exact absurd rfl (he space a v)
  | clock p => exact clockCycle_memories h

@[simp] theorem State.memory_quiet (s : State) (space : Space) : s.quiet.memory space = s.memory space := rfl

theorem changeMemory_of_supported {space : Space} {a : Addr} {s : State} (h : (s.memory space).supports a = true)
    (v : Byte) :
    changeMemory space a v s = .next (s.setMemory space ((s.memory space).change a v)).quiet := if_pos h

theorem changeMemory_of_unsupported {space : Space} {a : Addr} {s : State}
    (h : (s.memory space).supports a = false) (v : Byte) :
    changeMemory space a v s = .refused (.unsupportedMemoryChange space a) := if_neg (by simp [h])

theorem Memory.SameSupport.refl (m : Memory) : m.SameSupport m := fun _ => rfl

/-- A change of a byte keeps the supported addresses that a memory shares with another (R56). -/
theorem Memory.SameSupport.change {m m' : Memory} (h : m.SameSupport m') (a : Addr) (v : Byte) :
    m.SameSupport (m'.change a v) :=
  fun b => (m'.supports_change a b v).trans (h b)

/-- Both memories still support the addresses they did in a given state (R56). -/
theorem State.kept_sameSupport (s₀ : State) :
    State.Kept fun s => s₀.g.SameSupport s.g ∧ s₀.c.SameSupport s.c where
  ofRecord _ _ _ _ hs := hs
  ofExec h hs := by
    obtain ⟨hg, hc⟩ := exec_memories h
    rwa [hg, hc]
  ofReset _ hs := hs
  ofChange {space a v s t} h hs := by
    obtain ⟨-, rfl⟩ := changeMemory_next h
    obtain ⟨hg, hc⟩ := hs
    cases space with
    | graphics => exact ⟨hg.change a v, hc⟩
    | color => exact ⟨hg, hc.change a v⟩

/-! ### The obligations -/

/-- Settles O13: the changed memory reads as `Memory.read_change` says, and setting one memory leaves the other. -/
theorem stepChangesMemoryByte : Obligations.StepChangesMemoryByte := by
  intro s space a v rest hp
  have hstep : step s = changeMemory space a v { s with pending := rest } := step_pending hp
  refine ⟨fun hs => ?_, fun hs => hstep.trans (changeMemory_of_unsupported (s := { s with pending := rest }) hs v)⟩
  have hchange := hstep.trans (changeMemory_of_supported (s := { s with pending := rest }) hs v)
  refine ⟨_, hchange, by simp, by simp, rfl, rfl, ?_, fun b hb => ?_, fun other hother => ?_⟩
  · rw [State.memory_quiet, State.memory_setMemory, Memory.read_change, if_pos ⟨rfl, hs⟩]
  · rw [State.memory_quiet, State.memory_setMemory, Memory.read_change, if_neg fun hba => hb hba.1]
    rfl
  · rw [State.memory_quiet, State.memory_setMemory_of_ne _ _ hother]
    rfl

/-- Settles O30: in the window the reads are those of RESOLVE, by which of them answer and whether the bit is set. -/
theorem readsPerOperation : Obligations.ReadsPerOperation := by
  refine fun i s t h => ⟨fun hi => exec_reads_of_ne_tick hi h, ?_, ?_⟩
  · rintro rfl hw
    rw [exec_tick_outside hw h, State.tickWith_reads, ReadResult.log_value]
  · rintro rfl hw
    obtain rfl := exec_tick_inside hw h
    refine ⟨fun hmatrix => ?_, fun i hmatrix => ⟨fun hbitmap => ?_, fun row hbitmap =>
      ⟨fun hbit => ?_, fun hbit => ?_⟩⟩⟩
    · rw [resolve_matrix_failed (b := s.block) hmatrix]
      rfl
    · rw [resolve_bitmap_failed (b := s.block) hmatrix hbitmap]
      rfl
    · rw [resolve_background (b := s.block) hmatrix hbitmap ((isForeground_eq_false_iff _ _).2 hbit)]
      exact ⟨rfl, rfl⟩
    · rw [State.tickWith_reads,
        resolve_foreground_log (b := s.block) hmatrix hbitmap ((isForeground_iff _ _).2 hbit)]
      rfl

/-- Settles O31: an operation reads nothing but a beginning of the three reads of RESOLVE, whose addresses lie in the
regions. -/
theorem readsStayInRegions : Obligations.ReadsStayInRegions := by
  intro i s t h r hr
  obtain hnone | ⟨⟨-, -, hcursor⟩, hlog⟩ := exec_reads_cases h
  · simp [hnone] at hr
  · obtain ⟨index, hprefix⟩ := resolve_log_prefix s.block s.g s.c
    rw [hlog] at hr
    have hmem := hprefix.subset hr
    simp only [List.mem_cons, List.not_mem_nil, or_false] at hmem
    obtain rfl | rfl | rfl := hmem
    · exact ⟨fun _ => Cursor.matrixAddr_inRegions hcursor, nofun⟩
    · exact ⟨fun _ => s.block.cursor.bitmapAddr_inRegions index, nofun⟩
    · exact ⟨nofun, fun _ => Cursor.colorAddr_inRegion hcursor⟩

/-- Settles O32: the colour result is the same over both pairs of memories, and the commit does not look at them. -/
theorem onlyRegionsMatter : Obligations.OnlyRegionsMatter := by
  intro s t g' c' hg hc h
  obtain ⟨hlegal, rfl⟩ := exec_tick_next.1 h
  have ⟨_, _, hcursor⟩ := hlegal
  refine exec_tick_next.2 ⟨hlegal, ?_⟩
  rw [tickColor_congr hcursor hg hc]
  exact (s.tickWith_of_memories g' c' _).symm

/-- Settles O45: an operation acts on the block alone, and of the events only a memory change is no operation of the
block. -/
theorem blockNeverWritesMemory : Obligations.BlockNeverWritesMemory := by
  refine ⟨fun i s t h => ?_, fun s t h hp => ?_⟩
  · obtain ⟨block, responses, reads, rfl⟩ := exec_frame h
    exact ⟨rfl, rfl, rfl⟩
  · obtain ⟨-, rfl⟩ | ⟨e, rest, hpending, he⟩ := step_cases h
    · exact ⟨rfl, rfl⟩
    · exact runEvent_memories (s := { s with pending := rest })
        (fun space a v hchange => hp space a v rest (hchange ▸ hpending)) he

/-- Settles O50: a memory change alters a byte at a supported address, and nothing else alters a memory. -/
theorem stepKeepsSupportedAddresses : Obligations.StepKeepsSupportedAddresses :=
  fun s _ h => (State.kept_sameSupport s).step h ⟨.refl _, .refl _⟩

end Sys2Proof.Machine

/-! The command word (30_encoding.md): what a decoded word spells, and the rows WRITE is split into. -/

namespace Sys2Proof.Machine

open Sys2Proof

/-! ### The decoder's answers (R83) -/

/-- A word that is not refused spells a TICK, the WRITE of its address and value, or the READ of its address. -/
theorem decode_cases {w : Cmd} {i : Instr} (h : decode w = .instr i) :
    i = .tick ∨ i = writeInstr (addressField w) (valueField w) ∨ i = .read (addressField w) := by
  unfold decode at h
  split_ifs at h
  · exact .inl (Decoded.instr.inj h).symm
  · exact .inr (.inl (Decoded.instr.inj h).symm)
  · exact .inr (.inr (Decoded.instr.inj h).symm)

theorem decode_write (a : Addr) (v : Byte) : decode (cmdWord 0b01#2 a v) = .instr (writeInstr a v) := by
  simp [decode, opField_cmdWord, addressField_cmdWord, valueField_cmdWord]

/-! ### The rows of WRITE (R81, R154) -/

/-- Whichever row the address selects is well formed: the third is taken only when neither register's address is. -/
theorem wf_writeInstr (a : Addr) (v : Byte) : (writeInstr a v).wf = true := by
  unfold writeInstr
  split_ifs with hborder hbackground
  · rfl
  · rfl
  · simp [Instr.wf, hborder, hbackground]

/-! ### The obligations -/

/-- Settles O6: of the operations a word can spell, only a WRITE has a condition, and its address selects its row. -/
theorem decodedIsWellFormed : Obligations.DecodedIsWellFormed := by
  intro w i h
  obtain rfl | rfl | rfl := decode_cases h
  · rfl
  · exact wf_writeInstr _ _
  · rfl

/-- Settles O7: the WRITE word decodes to `writeInstr`, which is the stated choice by address. -/
theorem writeSplitByAddress : Obligations.WriteSplitByAddress := decode_write

end Sys2Proof.Machine

/-! The raster timing (40_raster_timing.md): the outcome of a TICK by its colour result, what a row of TICKs keeps and
when none of them fails, and that a WRITE and a TICK commute but for the pixel's colour. -/

namespace Sys2Proof.Machine

open Sys2Proof

/-! ### The three addresses as the rules write them (R121, R122, R125) -/

theorem Cursor.matrixAddr_eq (k : Cursor) :
    k.matrixAddr = BitVec.ofNat 16 (0x0400 + k.graphicsRow.toNat + k.graphicsColumn.toNat) := by
  rw [Nat.add_assoc]
  rfl

theorem Cursor.bitmapAddr_eq (k : Cursor) (i : Byte) :
    k.bitmapAddr i = BitVec.ofNat 16 (0x1000 + 8 * i.toNat + k.characterOffset.toNat) := rfl

theorem Cursor.colorAddr_eq (k : Cursor) :
    k.colorAddr = BitVec.ofNat 16 (0xD800 + k.graphicsRow.toNat + k.graphicsColumn.toNat) := by
  rw [Nat.add_assoc]
  rfl

/-! ### A TICK that has a colour (R100, R104) -/

/-- A TICK from a legal state whose colour result is a value commits the pixel and reports it. -/
theorem exec_tick_of_value {s : State} (hl : s.block.Legal) {color : Byte} {k : Cursor} {reads : List Access}
    (h : tickColor s.block s.g s.c = .value (color, k) reads) :
    exec .tick s = .next
      { s with
        block := s.block.commitPixel color k
        responses := [.pixel s.block.xCounter s.block.rasterCounter color]
        reads := reads } := by
  rw [exec_tick_of_legal hl, h]
  rfl

/-- Everything a TICK can do to position, cursor and `pix_valid` (R105 to R107): advance with a valid pixel, the cursor
stepping in the window only; or hold both without one. -/
theorem exec_tick_block_cases {s t : State} (h : exec .tick s = .next t) :
    (t.block.pixValid = true ∧ t.block.xCounter = s.block.nextX ∧ t.block.rasterCounter = s.block.nextLine ∧
      t.block.cursor = (if s.block.inWindow then s.block.cursor.step else s.block.cursor)) ∨
    (t.block.pixValid = false ∧ t.block.xCounter = s.block.xCounter ∧
      t.block.rasterCounter = s.block.rasterCounter ∧ t.block.cursor = s.block.cursor) := by
  obtain ⟨-, ⟨color, reads, rfl⟩ | ⟨-, a, reads, rfl⟩⟩ := exec_tick_cases h
  · exact .inl ⟨rfl, rfl, rfl, rfl⟩
  · exact .inr ⟨rfl, rfl, rfl, rfl⟩

/-! ### No TICK fails over memories that support the regions (R204) -/

theorem Memory.read_of_supports {m : Memory} {a : Addr} (h : m.supports a = true) : m.read a ≠ none :=
  Option.isSome_iff_ne_none.1 h

/-- Of the five cases of RESOLVE the three with a failing read cannot happen: each address lies in its region. -/
theorem resolve_of_supportsRegions {b : Block} {g c : Memory} (hk : b.cursor.Legal) (h : SupportsRegions g c) :
    ∃ color reads, resolve b g c = .value (color, b.cursor.step) reads := by
  obtain ⟨hg, hc⟩ := h
  have hmatrix := Memory.read_of_supports (hg _ (Cursor.matrixAddr_inRegions hk))
  have hbitmap := fun i => Memory.read_of_supports (hg _ (b.cursor.bitmapAddr_inRegions i))
  have hcolor := Memory.read_of_supports (hc _ (Cursor.colorAddr_inRegion hk))
  obtain h1 | ⟨i, -, h2⟩ | ⟨i, row, h1, h2, h3⟩ | ⟨-, -, -, -, -, h4⟩ | ⟨i, row, v, h1, h2, h3, h4⟩ :=
    resolve_cases b g c
  · exact absurd h1 hmatrix
  · exact absurd h2 (hbitmap i)
  · exact ⟨_, _, resolve_background h1 h2 h3⟩
  · exact absurd h4 hcolor
  · exact ⟨_, _, resolve_foreground h1 h2 h3 h4⟩

theorem tickColor_of_supportsRegions {b : Block} {g c : Memory} (hk : b.cursor.Legal) (h : SupportsRegions g c) :
    ∃ color k reads, tickColor b g c = .value (color, k) reads := by
  cases hw : b.inWindow with
  | false => exact ⟨_, _, _, tickColor_outside hw⟩
  | true =>
    obtain ⟨color, reads, hvalue⟩ := resolve_of_supportsRegions hk h
    exact ⟨_, _, _, (tickColor_inside hw).trans hvalue⟩

theorem tickOk_of_exec {s t : State} (h : exec .tick s = .next t) (hv : t.block.pixValid = true) :
    tickOk s = some t := by
  simp [tickOk, h, hv]

theorem tickOk_of_supportsRegions {s : State} (hl : s.block.Legal) (h : SupportsRegions s.g s.c) :
    ∃ t, tickOk s = some t := by
  have ⟨_, _, hcursor⟩ := hl
  obtain ⟨color, k, reads, hvalue⟩ := tickColor_of_supportsRegions hcursor h
  exact ⟨_, tickOk_of_exec (exec_tick_of_value hl hvalue) rfl⟩

theorem ticksOk_succ {n : Nat} {s t : State} (h : tickOk s = some t) : ticksOk (n + 1) s = ticksOk n t := by
  rw [ticksOk, h]

/-- Every TICK of a row succeeds: the state before each of them is again legal, over the same memories. -/
theorem ticksOk_of_supportsRegions (n : Nat) {s : State} (hl : s.block.Legal) (h : SupportsRegions s.g s.c) :
    ∃ t, ticksOk n s = some t := by
  induction n generalizing s with
  | zero => exact ⟨s, rfl⟩
  | succ n ih =>
    obtain ⟨u, hu⟩ := tickOk_of_supportsRegions hl h
    have hexec := (tickOk_eq_some hu).1
    obtain ⟨hg, hc⟩ := exec_memories hexec
    rw [ticksOk_succ hu]
    exact ih (Block.kept_legal.exec hexec hl) (by rwa [hg, hc])

/-! ### What a row of TICKs keeps -/

/-- What every TICK keeps, a row of them keeps. -/
theorem ticksOk_keeps {P : State → Prop} (hP : ∀ {u v}, exec .tick u = .next v → P u → P v)
    {n : Nat} {s t : State} (h : ticksOk n s = some t) (hs : P s) : P t := by
  induction n generalizing s with
  | zero =>
    obtain rfl := Option.some.inj h
    exact hs
  | succ n ih =>
    obtain ⟨u, hu, ht⟩ := ticksOk_succ_eq_some h
    exact ih ht (hP (tickOk_eq_some hu).1 hs)

theorem exec_tick_colorRegisters {s t : State} (h : exec .tick s = .next t) :
    t.block.borderColor = s.block.borderColor ∧ t.block.backgroundColor0 = s.block.backgroundColor0 := by
  obtain ⟨-, ⟨color, reads, rfl⟩ | ⟨-, a, reads, rfl⟩⟩ := exec_tick_cases h
  · exact ⟨rfl, rfl⟩
  · exact ⟨rfl, rfl⟩

theorem ticksOk_colorRegisters {n : Nat} {s t : State} (h : ticksOk n s = some t) :
    t.block.borderColor = s.block.borderColor ∧ t.block.backgroundColor0 = s.block.backgroundColor0 := by
  refine ticksOk_keeps (P := fun u => u.block.borderColor = s.block.borderColor ∧
    u.block.backgroundColor0 = s.block.backgroundColor0) (fun hexec hu => ?_) h ⟨rfl, rfl⟩
  obtain ⟨hborder, hbackground⟩ := exec_tick_colorRegisters hexec
  exact ⟨hborder.trans hu.1, hbackground.trans hu.2⟩

theorem ticksOk_memories {n : Nat} {s t : State} (h : ticksOk n s = some t) : t.g = s.g ∧ t.c = s.c := by
  refine ticksOk_keeps (P := fun u => u.g = s.g ∧ u.c = s.c) (fun hexec hu => ?_) h ⟨rfl, rfl⟩
  obtain ⟨hg, hc⟩ := exec_memories hexec
  exact ⟨hg.trans hu.1, hc.trans hu.2⟩

/-! ### The position number determines position and cursor (R23, R39) -/

theorem Block.counters_eq_of_position_eq {b b' : Block} (h : b.Legal) (h' : b'.Legal)
    (hposition : b.position = b'.position) :
    b.xCounter = b'.xCounter ∧ b.rasterCounter = b'.rasterCounter := by
  rw [Block.xCounter_eq_position_mod h, Block.xCounter_eq_position_mod h', Block.rasterCounter_eq_position_div h,
    Block.rasterCounter_eq_position_div h', hposition]
  exact ⟨rfl, rfl⟩

theorem Block.LockStep.cursor_eq {b b' : Block} (h : b.LockStep) (h' : b'.LockStep)
    (hx : b.xCounter = b'.xCounter) (hline : b.rasterCounter = b'.rasterCounter) : b.cursor = b'.cursor := by
  rw [Block.LockStep, Block.lockStepCursor_eq] at h h'
  rw [h, h', hx, hline]

/-! ### A TICK depends on the colour registers in its pixel's colour only (R111) -/

/-- Two colour results that agree but for the colour: the same cursor and reads, or the same failure. -/
inductive ReadResult.AgreeButColor : ReadResult (Byte × Cursor) → ReadResult (Byte × Cursor) → Prop where
  | value (color color' : Byte) (k : Cursor) (reads : List Access) :
    AgreeButColor (.value (color, k) reads) (.value (color', k) reads)
  | failed (a : Addr) (reads : List Access) : AgreeButColor (.failed a reads) (.failed a reads)

/-- Of the block RESOLVE takes the cursor and, for the colour, `background_color_0`. -/
theorem resolve_agreeButColor {b b' : Block} (hk : b'.cursor = b.cursor) (g c : Memory) :
    (resolve b g c).AgreeButColor (resolve b' g c) := by
  obtain h1 | ⟨i, h1, h2⟩ | ⟨i, row, h1, h2, h3⟩ | ⟨i, row, h1, h2, h3, h4⟩ | ⟨i, row, v, h1, h2, h3, h4⟩ :=
    resolve_cases b g c
  · rw [resolve_matrix_failed h1, resolve_matrix_failed (b := b') (hk ▸ h1), hk]
    exact .failed _ _
  · rw [resolve_bitmap_failed h1 h2, resolve_bitmap_failed (b := b') (hk ▸ h1) (hk ▸ h2), hk]
    exact .failed _ _
  · rw [resolve_background h1 h2 h3, resolve_background (b := b') (hk ▸ h1) (hk ▸ h2) (hk ▸ h3), hk]
    exact .value _ _ _ _
  · rw [resolve_color_failed h1 h2 h3 h4,
      resolve_color_failed (b := b') (hk ▸ h1) (hk ▸ h2) (hk ▸ h3) (hk ▸ h4), hk]
    exact .failed _ _
  · rw [resolve_foreground h1 h2 h3 h4,
      resolve_foreground (b := b') (hk ▸ h1) (hk ▸ h2) (hk ▸ h3) (hk ▸ h4), hk]
    exact .value _ _ _ _

@[simp] theorem Block.storeRegister_inWindow (b : Block) (a : Addr) (v : Byte) :
    (b.storeRegister a v).inWindow = b.inWindow := by
  simp [Block.inWindow, Block.inDisplayLines, Block.inDisplayX]

theorem tickColor_storeRegister (b : Block) (g c : Memory) (a : Addr) (v : Byte) :
    (tickColor b g c).AgreeButColor (tickColor (b.storeRegister a v) g c) := by
  cases hw : b.inWindow with
  | false =>
    rw [tickColor_outside hw, tickColor_outside ((b.storeRegister_inWindow a v).trans hw),
      Block.storeRegister_cursor]
    exact .value _ _ _ _
  | true =>
    rw [tickColor_inside hw, tickColor_inside ((b.storeRegister_inWindow a v).trans hw)]
    exact resolve_agreeButColor (b.storeRegister_cursor a v) g c

/-! ### A register store and a commit act on different fields -/

theorem Block.commitPixel_storeRegister (b : Block) (a : Addr) (v color color' : Byte) (k : Cursor) :
    { (b.storeRegister a v).commitPixel color' k with pixColor := color } =
      (b.commitPixel color k).storeRegister a v := by
  unfold Block.storeRegister
  split_ifs <;> rfl

theorem Block.dropPixel_storeRegister (b : Block) (a : Addr) (v : Byte) :
    (b.storeRegister a v).dropPixel = b.dropPixel.storeRegister a v := by
  unfold Block.storeRegister
  split_ifs <;> rfl

/-- The block after a WRITE is that of the register store, which does nothing where no register is (R150). -/
@[simp] theorem State.writeRegister_block (s : State) (a : Addr) (v : Byte) :
    (s.writeRegister a v).block = s.block.storeRegister a v := by
  obtain ⟨-, hw⟩ | ⟨hunsupported, hw⟩ := s.writeRegister_cases a v
  · rw [hw]
  · rw [hw, Block.storeRegister_unsupported hunsupported]

/-- Results that agree but for the colour commute with a register store but for `pix_color`. -/
theorem ReadResult.AgreeButColor.tickWith_block {r r' : ReadResult (Byte × Cursor)} (h : r.AgreeButColor r')
    {s w : State} {a : Addr} {v : Byte} (hw : w.block = s.block.storeRegister a v) :
    { (w.tickWith r').block with pixColor := (s.tickWith r).block.pixColor } =
      (s.tickWith r).block.storeRegister a v := by
  cases h with
  | value color color' k reads =>
    show { w.block.commitPixel color' k with pixColor := color } = (s.block.commitPixel color k).storeRegister a v
    rw [hw, Block.commitPixel_storeRegister]
  | failed addr reads =>
    show { w.block.dropPixel with pixColor := s.block.pixColor } = s.block.dropPixel.storeRegister a v
    rw [hw, ← Block.dropPixel_storeRegister, ← s.block.storeRegister_pixColor a v]
    rfl

/-! ### The obligations -/

/-- Settles O19: with the bit clear RESOLVE has a value after two reads, so the TICK commits it. -/
theorem tickBackgroundPixel : Obligations.TickBackgroundPixel := by
  intro s i row hl hw hmatrix hbitmap hbit
  rw [← Cursor.matrixAddr_eq] at hmatrix
  rw [← Cursor.bitmapAddr_eq] at hbitmap
  have hvalue := (tickColor_inside hw).trans
    (resolve_background (c := s.c) hmatrix hbitmap ((isForeground_eq_false_iff _ _).2 hbit))
  exact ⟨_, exec_tick_of_value hl hvalue, rfl, rfl, rfl, rfl, rfl⟩

/-- Settles O20: with the bit set RESOLVE has the byte of the third read, so the TICK commits it. -/
theorem tickForegroundPixel : Obligations.TickForegroundPixel := by
  intro s i row color hl hw hmatrix hbitmap hbit hcolor
  rw [← Cursor.matrixAddr_eq] at hmatrix
  rw [← Cursor.bitmapAddr_eq] at hbitmap
  rw [← Cursor.colorAddr_eq] at hcolor
  have hvalue := (tickColor_inside hw).trans
    (resolve_foreground hmatrix hbitmap ((isForeground_iff _ _).2 hbit) hcolor)
  exact ⟨_, exec_tick_of_value hl hvalue, rfl, rfl, rfl, rfl, rfl⟩

/-- Settles O22: a TICK either commits a pixel and advances, or drops it and holds; WRITE and READ change the colour
registers only. -/
theorem tickAdvancesPosition : Obligations.TickAdvancesPosition := by
  refine ⟨fun s t h => ⟨fun hv => ?_, fun hv => ?_⟩, fun i s t hi h => ?_⟩
  · obtain ⟨⟨hx, hline, -⟩, color, hb, hresponse⟩ := exec_tick_success h hv
    rw [hb, Block.commitPixel_xCounter, Block.commitPixel_rasterCounter]
    refine ⟨⟨color, hresponse⟩, fun hlt => ⟨?_, ?_⟩, fun hend => ⟨?_, fun hlast => ?_, fun hlast => ?_⟩⟩
    · rw [Block.nextX_toNat hx, if_neg (Nat.ne_of_lt hlt)]
    · apply BitVec.eq_of_toNat_eq
      rw [Block.nextLine_toNat hline, if_neg (Nat.ne_of_lt hlt)]
    · rw [Block.nextX_toNat hx, if_pos hend]
    · rw [Block.nextLine_toNat hline, if_pos hend, if_pos hlast]
    · rw [Block.nextLine_toNat hline, if_pos hend, if_neg hlast]
  · obtain ⟨hv', -⟩ | ⟨-, hx, hline, -⟩ := exec_tick_block_cases h
    · exact absurd (hv.symm.trans hv') Bool.false_ne_true
    · exact ⟨hx, hline⟩
  · obtain ⟨border, background, hb⟩ := exec_block_of_ne_tick hi h
    rw [hb]
    exact ⟨rfl, rfl⟩

/-- Settles O25: no TICK of the frame fails, 136240 more is the same position number, and the number determines the
counters and, in lock step, the cursor. -/
theorem frameReturnsToStart : Obligations.FrameReturnsToStart := by
  intro s hl hlock hsupports
  obtain ⟨t, ht⟩ := ticksOk_of_supportsRegions 136240 hl hsupports
  have hl' : t.block.Legal := ticksOk_keeps Block.kept_legal.exec ht hl
  have hlock' : t.block.LockStep := ticksOk_keeps Block.kept_lockStep.exec ht hlock
  have hposition : t.block.position = s.block.position := by
    rw [ticksOk_position hl ht, Nat.add_mod_right, Nat.mod_eq_of_lt (Block.position_lt hl)]
  obtain ⟨hx, hline⟩ := Block.counters_eq_of_position_eq hl' hl hposition
  obtain ⟨hborder, hbackground⟩ := ticksOk_colorRegisters ht
  exact ⟨t, ht, hx, hline, hlock'.cursor_eq hlock hx hline, hborder, hbackground, ticksOk_memories ht⟩

/-- Settles O27: a TICK steps the cursor only with a valid pixel in the window, and WRITE and READ change the colour
registers only. -/
theorem cursorMovesOnWindowPixelsOnly : Obligations.CursorMovesOnWindowPixelsOnly := by
  intro i s t h hstill
  by_cases hi : i = .tick
  · subst hi
    obtain ⟨hv, -, -, hcursor⟩ | ⟨-, -, -, hcursor⟩ := exec_tick_block_cases h
    · have hw : s.block.inWindow = false := by simpa [hv] using hstill
      rw [hcursor, hw]
      rfl
    · exact hcursor
  · obtain ⟨border, background, hb⟩ := exec_block_of_ne_tick hi h
    rw [hb]

/-- Settles O41: the colour results before and after the WRITE agree but for the colour, whether the TICK succeeds or
fails. -/
theorem writeAndTickCommute : Obligations.WriteAndTickCommute := by
  intro s t a v h
  obtain ⟨hl, rfl⟩ := exec_tick_next.1 h
  have hwrite := exec_writeInstr a v s
  obtain ⟨hg, hc⟩ := exec_memories hwrite
  refine ⟨_, _, _, exec_writeInstr a v _, hwrite, exec_tick_of_legal (Block.kept_legal.exec hwrite hl), ?_⟩
  rw [hg, hc, State.writeRegister_block, State.writeRegister_block, Block.storeRegister_pixColor]
  exact (tickColor_storeRegister s.block s.g s.c a v).tickWith_block (s.writeRegister_block a v)

/-- Settles O17. -/
theorem windowClassification : Obligations.WindowClassification :=
  Block.inWindow_iff

/-- Settles O18: outside the window the colour result is the border colour with the old cursor and no read. -/
theorem tickOutsideWindow : Obligations.TickOutsideWindow :=
  fun _ hl hw => exec_tick_of_value hl (tickColor_outside hw)

end Sys2Proof.Machine

/-! The character pixel resolver (41_character_pixel_resolver.md): which carry of the cursor fires and what it moves,
and which bit of the glyph's row a window position shows. -/

namespace Sys2Proof.Machine

open Sys2Proof

/-! ### The carries of a cursor step, one by one (R127 to R129) -/

theorem rotr8_eq_first_iff (m : Byte) : rotr8 m = 0x80#8 ↔ m = 0x01#8 := by
  rw [← maskWrapped_iff, maskWrapped, beq_iff_eq]

section
variable {k : Cursor}

theorem Cursor.step_of_bit (hm : k.pixelMask ≠ 0x01#8) : k.step = { k with pixelMask := rotr8 k.pixelMask } := by
  simpa [hm] using k.step_cases

theorem Cursor.step_of_column (hm : k.pixelMask = 0x01#8) (hc : k.graphicsColumn.toNat < 39) :
    k.step = { k with pixelMask := 0x80#8, graphicsColumn := k.graphicsColumn + 1#6 } := by
  simpa [hm, hc, Nat.not_le.2 hc] using k.step_cases

theorem Cursor.step_of_subRow (hm : k.pixelMask = 0x01#8) (hc : k.graphicsColumn.toNat = 39)
    (ho : k.characterOffset.toNat < 7) :
    k.step =
      { k with pixelMask := 0x80#8, graphicsColumn := 0#6, characterOffset := k.characterOffset + 1#3 } := by
  simpa [hm, hc, ho, Nat.not_le.2 ho] using k.step_cases

theorem Cursor.step_of_row (hm : k.pixelMask = 0x01#8) (hc : k.graphicsColumn.toNat = 39)
    (ho : k.characterOffset.toNat = 7) : k.step = ⟨nextRow k.graphicsRow, 0#6, 0#3, 0x80#8⟩ := by
  simpa [hm, hc, ho] using k.step_cases

/-- The column returns to 0 whether or not the sub-row carries. -/
theorem Cursor.step_graphicsColumn_of_last (hm : k.pixelMask = 0x01#8) (hc : k.graphicsColumn.toNat = 39) :
    k.step.graphicsColumn = 0#6 := by
  obtain ho | ho : k.characterOffset.toNat < 7 ∨ k.characterOffset.toNat = 7 := by omega
  · rw [Cursor.step_of_subRow hm hc ho]
  · rw [Cursor.step_of_row hm hc ho]

end

/-- The mask rotates whichever carries fire: `0x01` rotates to `0x80` (R127). -/
theorem Cursor.step_pixelMask (k : Cursor) : k.step.pixelMask = rotr8 k.pixelMask := by
  obtain ⟨-, h⟩ | ⟨hm, -, h⟩ | ⟨hm, -, -, h⟩ | ⟨hm, -, -, h⟩ := k.step_cases
  · rw [h]
  all_goals
    rw [h, hm]
    rfl

/-- A row offset before the last one steps without wrapping (R129). -/
theorem nextRow_toNat_of_ne {row : BitVec 10} (hmod : row.toNat % 40 = 0) (hlt : row.toNat < 1000)
    (hlast : row.toNat ≠ 960) : (nextRow row).toNat = row.toNat + 40 := by
  rw [nextRow_toNat]
  omega

theorem exec_tick_window_cursor {s t : State} (h : exec .tick s = .next t) (hw : s.block.inWindow = true)
    (hv : t.block.pixValid = true) : s.block.cursor.Legal ∧ t.block.cursor = s.block.cursor.step := by
  obtain ⟨⟨-, -, hcursor⟩, color, hb, -⟩ := exec_tick_success h hv
  exact ⟨hcursor, by rw [hb, Block.commitPixel_cursor, if_pos hw]⟩

/-! ### The bit of the glyph's row that a mask selects (R124, R133) -/

/-- The mask `0x80 >> p` has bit `7 - p` set alone (R28). -/
theorem maskAt_eq_twoPow : ∀ p < 8, maskAt p = BitVec.twoPow 8 (7 - p) := by decide

theorem and_maskAt (row : Byte) {p : Nat} (hp : p < 8) :
    row &&& maskAt p = if row.getLsbD (7 - p) then maskAt p else 0#8 := by
  rw [maskAt_eq_twoPow p hp, BitVec.and_twoPow]

theorem maskAt_ne_zero : ∀ p < 8, maskAt p ≠ 0#8 := by decide

/-! ### The obligations -/

/-- Settles O26: a committed window pixel steps the cursor, and the premises of each clause select its carry. -/
theorem cursorCarryChain : Obligations.CursorCarryChain := by
  intro s t h hw hv k k'
  obtain ⟨⟨hmod, hrow, -⟩, hstep⟩ : k.Legal ∧ k' = k.step := exec_tick_window_cursor h hw hv
  have hwrap : k.step.pixelMask = 0x80#8 ↔ k.pixelMask = 0x01#8 := by
    rw [Cursor.step_pixelMask, rotr8_eq_first_iff]
  rw [hstep, hwrap]
  refine ⟨k.step_pixelMask, Iff.rfl, fun hm => ?_, fun hm hc => ?_, fun hm hc => ⟨?_, fun ho => ?_, fun ho => ?_⟩⟩
  · rw [Cursor.step_of_bit (mt hwrap.2 hm)]
    exact ⟨rfl, rfl, rfl⟩
  · rw [Cursor.step_of_column hm hc]
    exact ⟨graphicsColumn_succ_toNat hc, rfl, rfl⟩
  · rw [Cursor.step_graphicsColumn_of_last hm hc]
    rfl
  · rw [Cursor.step_of_subRow hm hc ho]
    exact ⟨characterOffset_succ_toNat ho, rfl⟩
  · rw [Cursor.step_of_row hm hc ho]
    exact ⟨rfl, nextRow_toNat _, fun hlast => by rw [nextRow_toNat, hlast], nextRow_toNat_of_ne hmod hrow⟩

/-- Settles O53: in lock step the cursor of the window position is the one of `lockStepClosedForm`, so its addresses are
those stated and its mask selects bit `7 - p`, where `p` is the pixel within the cell; the bit decides between
`tickForegroundPixel` and `tickBackgroundPixel`. -/
theorem windowPixelClosedForm : Obligations.WindowPixelClosedForm := by
  intro s i b hl hlock hw x line cell hmatrix hbitmap
  obtain ⟨hcolumn, hmask, hoffset, hrow⟩ := (lockStepClosedForm s.block hl hlock).1 hw
  have hp : (x - 124) % 8 < 8 := Nat.mod_lt _ (by decide)
  have hbit : b &&& s.block.cursor.pixelMask =
      if b.getLsbD (7 - (x - 124) % 8) then maskAt ((x - 124) % 8) else 0#8 := by
    rw [hmask]
    exact and_maskAt b hp
  have hcell : ∀ base, base + s.block.cursor.graphicsRow.toNat + s.block.cursor.graphicsColumn.toNat =
      base + cell := fun base => by rw [hrow, hcolumn, Nat.add_assoc]
  rw [← hcell] at hmatrix
  rw [← hoffset] at hbitmap
  refine ⟨fun v hset hcolor => ?_, fun hclear => ?_⟩
  · rw [← hcell] at hcolor
    have hforeground : b &&& s.block.cursor.pixelMask ≠ 0#8 := by
      rw [hbit, if_pos hset]
      exact maskAt_ne_zero _ hp
    obtain ⟨t, ht, hresponse, -⟩ := tickForegroundPixel s i b v hl hw hmatrix hbitmap hforeground hcolor
    exact ⟨t, ht, hresponse⟩
  · have hbackground : b &&& s.block.cursor.pixelMask = 0#8 := by simp [hbit, hclear]
    obtain ⟨t, ht, hresponse, -⟩ := tickBackgroundPixel s i b hl hw hmatrix hbitmap hbackground
    exact ⟨t, ht, hresponse⟩

end Sys2Proof.Machine

/-! The register file (42_register_file.md): the words of WRITE and READ and what these operations do to the state, when
a step changes a colour register, and that the next TICK uses what was written. -/

namespace Sys2Proof.Machine

open Sys2Proof

/-! ### The words of WRITE and READ as numbers (R82) -/

theorem cmdWord_eq_ofNat (op : BitVec 2) (a : Addr) (v : Byte) :
    cmdWord op a v = BitVec.ofNat 26 (2 ^ 24 * op.toNat + 2 ^ 8 * a.toNat + v.toNat) := by
  rw [← cmdWord_toNat, BitVec.ofNat_toNat, BitVec.setWidth_eq]

theorem decode_read (a : Addr) (v : Byte) : decode (cmdWord 0b10#2 a v) = .instr (.read a) := by
  simp [decode, opField_cmdWord, addressField_cmdWord]

theorem decode_writeNumber (a : Addr) (v : Byte) :
    decode (BitVec.ofNat 26 (0x1000000 + 256 * a.toNat + v.toNat)) = .instr (writeInstr a v) := by
  have hword : cmdWord 0b01#2 a v = BitVec.ofNat 26 (0x1000000 + 256 * a.toNat + v.toNat) := cmdWord_eq_ofNat _ _ _
  rw [← hword, decode_write]

theorem decode_readNumber (a : Addr) (v : Byte) :
    decode (BitVec.ofNat 26 (0x2000000 + 256 * a.toNat + v.toNat)) = .instr (.read a) := by
  have hword : cmdWord 0b10#2 a v = BitVec.ofNat 26 (0x2000000 + 256 * a.toNat + v.toNat) := cmdWord_eq_ofNat _ _ _
  rw [← hword, decode_read]

/-- The third WRITE row is taken where no register is (R81, R154). -/
theorem writeInstr_of_ne {a : Addr} (hborder : a ≠ borderColorAddr) (hbackground : a ≠ backgroundColor0Addr)
    (v : Byte) : writeInstr a v = .writeUnsupported a v := by
  rw [writeInstr, if_neg hborder, if_neg hbackground]

/-! ### What WRITE and READ do (R151 to R154) -/

theorem exec_writeBorderColor (v : Byte) (s : State) :
    exec (.writeBorderColor v) s = .next
      { s with block := { s.block with borderColor := v }, responses := [.ok], reads := [] } := rfl

theorem exec_writeBackgroundColor0 (v : Byte) (s : State) :
    exec (.writeBackgroundColor0 v) s = .next
      { s with block := { s.block with backgroundColor0 := v }, responses := [.ok], reads := [] } := rfl

theorem exec_writeUnsupported {a : Addr} (h : supportedRegister a = false) (v : Byte) (s : State) :
    exec (.writeUnsupported a v) s = .next
      { s with responses := [.error (.unsupportedAddress a (some v))], reads := [] } := by
  obtain ⟨hsupported, -⟩ | ⟨-, hw⟩ := s.writeRegister_cases a v
  · simp [h] at hsupported
  · exact congrArg Host.Outcome.next hw

theorem exec_read (a : Addr) (s : State) :
    exec (.read a) s = .next { s with responses := [.error (.unsupportedAddress a none)], reads := [] } := rfl

theorem exec_read_block {a : Addr} {s t : State} (h : exec (.read a) s = .next t) : t.block = s.block := by
  obtain rfl := Host.Outcome.next.inj ((exec_read a s).symm.trans h)
  rfl

/-! ### When a colour register changes (R155) -/

/-- A byte of the block that is the register at an address: the register file's store writes it there and only there,
and neither outcome of a TICK touches it. -/
structure Block.RegisterAt (reg : Block → Byte) (a : Addr) : Prop where
  store : ∀ b a' v, reg (b.storeRegister a' v) = if a' = a then v else reg b
  commit : ∀ b color k, reg (b.commitPixel color k) = reg b
  drop : ∀ b, reg b.dropPixel = reg b

theorem Block.registerAt_borderColor : Block.RegisterAt Block.borderColor 0xD020#16 where
  store b a v := by
    unfold Block.storeRegister
    split_ifs <;> rfl
  commit := Block.commitPixel_borderColor
  drop := Block.dropPixel_borderColor

theorem Block.registerAt_backgroundColor0 : Block.RegisterAt Block.backgroundColor0 0xD021#16 where
  store b a v := by
    by_cases hborder : a = borderColorAddr
    · rw [hborder]
      rfl
    · rw [Block.storeRegister, if_neg hborder]
      split_ifs <;> rfl
  commit := Block.commitPixel_backgroundColor0
  drop := Block.dropPixel_backgroundColor0

/-- The events that can leave a value in the register at an address: a reset, the WRITE of the value to it, and a clock
cycle with `rst` or that WRITE (R155; R93 for the cycle). -/
def Event.CanStore (a : Addr) (v : Byte) (e : Event) : Prop :=
  e = .reset ∨
  (∃ w, e = .command w ∧ decode w = .instr (writeInstr a v)) ∨
  ∃ p, e = .clock p ∧ (p.rst = true ∨ (p.regWe = true ∧ p.regAddr = a ∧ p.regWdata = v))

section
variable {reg : Block → Byte} {a : Addr} (hreg : Block.RegisterAt reg a)
include hreg

theorem Block.RegisterAt.exec_tick {s t : State} (h : exec .tick s = .next t) : reg t.block = reg s.block := by
  obtain ⟨-, ⟨color, reads, rfl⟩ | ⟨-, addr, reads, rfl⟩⟩ := exec_tick_cases h
  · exact hreg.commit _ _ _
  · exact hreg.drop _

/-- A WRITE leaves the register as it was unless it writes its new value to it. -/
theorem Block.RegisterAt.exec_writeInstr {a' : Addr} {v : Byte} {s t : State}
    (h : exec (writeInstr a' v) s = .next t) : reg t.block = reg s.block ∨ (a' = a ∧ v = reg t.block) := by
  obtain rfl := Host.Outcome.next.inj ((Machine.exec_writeInstr a' v s).symm.trans h)
  rw [State.writeRegister_block, hreg.store]
  split_ifs with ha
  · exact .inr ⟨ha, rfl⟩
  · exact .inl rfl

theorem Block.RegisterAt.runCommand {w : Cmd} {s t : State} (h : runCommand w s = .next t) :
    reg t.block = reg s.block ∨ decode w = .instr (writeInstr a (reg t.block)) := by
  obtain ⟨i, hd, hi⟩ := runCommand_next h
  obtain rfl | rfl | rfl := decode_cases hd
  · exact .inl (hreg.exec_tick hi)
  · obtain hsame | ⟨ha, hv⟩ := hreg.exec_writeInstr hi
    · exact .inl hsame
    · exact .inr (by rw [hd, ha, hv])
  · exact .inl (congrArg reg (exec_read_block hi))

theorem Block.RegisterAt.clockCycle {p : PortIn} {s t : State} (h : clockCycle p s = .next t) :
    reg t.block = reg s.block ∨
      p.rst = true ∨ (p.regWe = true ∧ p.regAddr = a ∧ p.regWdata = reg t.block) := by
  obtain ⟨hrst, -⟩ | ⟨-, u, hu, hphase⟩ := clockCycle_next h
  · exact .inr (.inl hrst)
  · have htick : reg u.block = reg s.block := by
      split_ifs at hu
      · exact hreg.exec_tick hu
      · rw [hu, State.quiet_block]
    rw [← htick]
    obtain ⟨hwe, v, hv, rfl⟩ | ⟨-, -, v, hv, rfl⟩ | ⟨-, -, rfl⟩ := hphase
    · exact (hreg.exec_writeInstr hv).imp_right fun hwrite => .inr ⟨hwe, hwrite⟩
    · exact .inl (congrArg reg (exec_read_block hv) :)
    · exact .inl rfl

theorem Block.RegisterAt.runEvent {e : Event} {s t : State} (h : runEvent e s = .next t) :
    reg t.block = reg s.block ∨ e.CanStore a (reg t.block) := by
  cases e with
  | command w => exact (hreg.runCommand h).imp_right fun hw => .inr (.inl ⟨w, rfl, hw⟩)
  | reset => exact .inr (.inl rfl)
  | memoryChange space addr v =>
    obtain ⟨-, rfl⟩ := changeMemory_next h
    exact .inl (by rw [State.quiet_block, State.setMemory_block])
  | clock p => exact (hreg.clockCycle h).imp_right fun hp => .inr (.inr ⟨p, rfl, hp⟩)

/-- A step that changes a register took an event that can store the new value in it. -/
theorem Block.RegisterAt.step {s t : State} (h : step s = .next t) (hne : reg t.block ≠ reg s.block) :
    ∃ e rest, s.pending = e :: rest ∧ e.CanStore a (reg t.block) := by
  obtain ⟨-, rfl⟩ | ⟨e, rest, hp, he⟩ := step_cases h
  · exact absurd rfl hne
  · exact ⟨e, rest, hp, (hreg.runEvent he).resolve_left hne⟩

end

/-! ### The obligations -/

/-- Settles O46: both colour registers are registers of the block, at their two addresses. -/
theorem colorsChangeByWriteOrResetOnly : Obligations.ColorsChangeByWriteOrResetOnly :=
  fun _ _ h => ⟨Block.registerAt_borderColor.step h, Block.registerAt_backgroundColor0.step h⟩

/-- Settles O40: the WRITE leaves position, cursor and memories, so the TICK after it is the border TICK or the
background TICK (`tickBackgroundPixel`) of the written block. -/
theorem writeSeenByNextTick : Obligations.WriteSeenByNextTick := by
  refine ⟨fun s v hl hw => ?_, fun s v i row hl hw hmatrix hbitmap hbit => ?_⟩
  · exact ⟨_, _, exec_writeBorderColor v s, tickOutsideWindow _ hl hw, rfl⟩
  · obtain ⟨u, hu, hresponse, -⟩ :=
      tickBackgroundPixel { s with block := { s.block with backgroundColor0 := v }, responses := [.ok], reads := [] }
        i row hl hw hmatrix hbitmap hbit
    exact ⟨_, u, exec_writeBackgroundColor0 v s, hu, hresponse⟩

/-- Settles O36: the word is the WRITE word of address 0xD020. -/
theorem writeBorderColorStores : Obligations.WriteBorderColorStores :=
  fun s v => ⟨decode_writeNumber 0xD020#16 v, exec_writeBorderColor v s⟩

/-- Settles O37: the word is the WRITE word of address 0xD021. -/
theorem writeBackgroundColorStores : Obligations.WriteBackgroundColorStores :=
  fun s v => ⟨decode_writeNumber 0xD021#16 v, exec_writeBackgroundColor0 v s⟩

/-- Settles O38: at an address without a register the WRITE word spells the third row. -/
theorem writeUnsupportedFails : Obligations.WriteUnsupportedFails := by
  intro s a v hborder hbackground
  have hunsupported : supportedRegister a = false := by simp [supportedRegister, hborder, hbackground]
  exact ⟨by rw [decode_writeNumber, writeInstr_of_ne hborder hbackground], exec_writeUnsupported hunsupported v s⟩

/-- Settles O39. -/
theorem readAlwaysFails : Obligations.ReadAlwaysFails :=
  fun s a ignored => ⟨decode_readNumber a ignored, exec_read a s⟩

end Sys2Proof.Machine

/-! The pixel output and the geometry (43_pixel_output_and_geometry.md): the conversion of raster lines to screen lines, the
visible area and the place of a pixel on the screen. -/

namespace Sys2Proof.Machine

/-! ### SCREEN_Y on the lines of the raster (R171) -/

theorem screenY_of_lt {line : Nat} (h : line < 262) : screenY line = some ((line + 221) % 262) :=
  if_pos h

/-- From the first line of the top border on, SCREEN_Y counts from that line. -/
theorem screenY_of_topBorder_le {line : Nat} (h : line < 262) (htop : 41 ≤ line) :
    screenY line = some (line - 41) := by
  have hmod : (line + 221) % 262 = line - 41 := by omega
  rw [screenY_of_lt h, hmod]

/-- The lines before the top border follow the last line of the raster. -/
theorem screenY_of_lt_topBorder {line : Nat} (htop : line < 41) : screenY line = some (line + 221) := by
  have hmod : (line + 221) % 262 = line + 221 := Nat.mod_eq_of_lt (by omega)
  rw [screenY_of_lt (by omega), hmod]

/-- Moving on by 41 lines undoes SCREEN_Y. -/
theorem screenY_eq_some_iff {line y : Nat} (hline : line < 262) (hy : y < 262) :
    screenY line = some y ↔ line = (y + 41) % 262 := by
  rw [screenY_of_lt hline, Option.some.injEq]
  omega

/-! ### The visible lines and the visible area (R170) -/

theorem visibleLine_iff {line : Nat} : visibleLine line = true ↔ ∃ y, screenY line = some y ∧ y < 234 := by
  cases h : screenY line <;> simp [visibleLine, h]

/-- The visible lines run from the top border to the end of the raster and on to the blank area. -/
theorem visibleLine_iff_of_lt {line : Nat} (h : line < 262) :
    visibleLine line = true ↔ 41 ≤ line ∨ line < 13 := by
  rw [visibleLine_iff]
  obtain htop | htop := Nat.lt_or_ge line 41
  · simp only [screenY_of_lt_topBorder htop, Option.some.injEq, exists_eq_left']
    omega
  · simp only [screenY_of_topBorder_le h htop, Option.some.injEq, exists_eq_left']
    omega

theorem visible_iff {x line : Nat} :
    visible x line = true ↔ (77 ≤ x ∧ x < 492) ∧ visibleLine line = true := by
  simp [visible]

theorem screenPlace_of_visible {x line y : Nat} (h : visible x line = true) (hy : screenY line = some y) :
    screenPlace x line = some (x - 77, y) := by
  simp [screenPlace, h, hy]

/-! ### The obligations -/

/-- Settles O56: the one line with screen line `y` is `(y + 41) mod 262`. -/
theorem screenYConverts : Obligations.ScreenYConverts := by
  refine ⟨fun line h => ⟨screenY_of_lt h, Nat.mod_lt _ (by decide), screenY_of_topBorder_le h, screenY_of_lt_topBorder⟩,
    fun y hy => ⟨(y + 41) % 262, ?_⟩⟩
  have hline : (y + 41) % 262 < 262 := Nat.mod_lt _ (by decide)
  exact ⟨hline, (screenY_eq_some_iff hline hy).2 rfl, fun line' h' => (screenY_eq_some_iff h' hy).1⟩

/-- Settles O57: the landmarks lie at the ends of the two pieces of SCREEN_Y and of the borders. -/
theorem screenYLandmarks : Obligations.ScreenYLandmarks :=
  ⟨rfl, rfl, rfl, rfl, rfl, rfl, rfl, rfl, rfl, rfl, rfl, fun _ _ => visibleLine_iff⟩

/-- Settles O58: a visible pixel has a visible line, whose screen line is the row of its place. -/
theorem visibleAreaPlaced : Obligations.VisibleAreaPlaced := by
  refine fun x line _ hline => ⟨?_, fun hvisible => ?_⟩
  · rw [visible_iff, visibleLine_iff_of_lt hline]
  · obtain ⟨⟨hleft, hright⟩, hvisibleLine⟩ := visible_iff.1 hvisible
    obtain ⟨y, hy, hrow⟩ := visibleLine_iff.1 hvisibleLine
    exact ⟨y, hy, screenPlace_of_visible hvisible hy, by omega, hrow⟩

end Sys2Proof.Machine

/-! Exceptions (60_exceptions.md): the state a failed TICK leaves, and which address its `ReadError` carries. -/

namespace Sys2Proof.Machine

/-- The TICK whose colour result is a failed read answers the error for that address and drops the pixel (R106, R185). -/
theorem exec_tick_of_failed {s : State} {addr : Addr} {reads : List Access} (hl : s.block.Legal)
    (h : tickColor s.block s.g s.c = .failed addr reads) :
    exec .tick s = .next
      { s with block := s.block.dropPixel, responses := [.error (.readError addr)], reads := reads } := by
  rw [exec_tick_of_legal hl, h]
  rfl

/-- Settles O21: RESOLVE has the address of the first read that fails, and the TICK answers the error for it. -/
theorem tickReadErrorPriority : Obligations.TickReadErrorPriority := by
  intro s hl hw cell failedAt
  have hfailed : ∀ {addr reads}, resolve s.block s.g s.c = .failed addr reads → failedAt addr := fun h =>
    ⟨_, exec_tick_of_failed hl ((tickColor_inside hw).trans h), rfl, rfl, rfl, rfl, rfl⟩
  simp only [cell, ← Nat.add_assoc, ← Cursor.matrixAddr_eq, ← Cursor.bitmapAddr_eq, ← Cursor.colorAddr_eq]
  refine ⟨fun hmatrix => ?_, fun i hmatrix => ⟨fun hbitmap => ?_, fun row hbitmap hbit hcolor => ?_⟩⟩
  · exact hfailed (resolve_matrix_failed hmatrix)
  · exact hfailed (resolve_bitmap_failed hmatrix hbitmap)
  · exact hfailed (resolve_color_failed hmatrix hbitmap ((isForeground_iff _ _).2 hbit) hcolor)

end Sys2Proof.Machine

/-! Reset and hazards (70_reset_and_hazards.md): a step on a reset event, the first TICK after reset, and a TICK over
memories that support the regions. -/

namespace Sys2Proof.Machine

open Sys2Proof

theorem decode_encode_tick : decode (encode .tick) = .instr .tick := by decide

/-- Position (0, 0) lies above the display window (R101, R203). -/
theorem Block.inWindow_reset : Block.reset.inWindow = false := by decide

/-- Settles O33: over such memories the colour result is a value, and the TICK commits it. -/
theorem noReadErrorWhenRegionsSupported : Obligations.NoReadErrorWhenRegionsSupported := by
  intro s hl hsupports
  have ⟨_, _, hcursor⟩ := hl
  obtain ⟨color, k, reads, hvalue⟩ := tickColor_of_supportsRegions hcursor hsupports
  exact ⟨_, color, exec_tick_of_value hl hvalue, rfl, rfl⟩

/-- Settles O11: the event is taken off and reset applied to what is left. -/
theorem stepAppliesReset : Obligations.StepAppliesReset :=
  fun _ _ hp => step_pending hp

/-- Settles O16: the reset state is legal and outside the window, so the TICK reports the border colour at its position
with the old cursor. -/
theorem firstTickReportsOrigin : Obligations.FirstTickReportsOrigin := by
  intro g c rest
  have hstep : step (State.construct g c (.command (encode .tick) :: rest)) =
      exec .tick (State.construct g c rest) := step_command rfl decode_encode_tick
  have htick := tickOutsideWindow (State.construct g c rest) Block.legal_reset Block.inWindow_reset
  exact ⟨_, hstep.trans htick, rfl, rfl, rfl, rfl⟩

end Sys2Proof.Machine

/-! The command word (30_encoding.md): what each `op` decodes to, the canonical word of an operation, and the rows of
the opcode table. -/

namespace Sys2Proof.Machine

open Sys2Proof

/-! ### What each `op` decodes to (R83) -/

theorem op_cases : ∀ op : BitVec 2, op = 0b00#2 ∨ op = 0b01#2 ∨ op = 0b10#2 ∨ op = 0b11#2 := by decide

section
variable {w : Cmd}

theorem decode_of_tick (h : opField w = 0b00#2) : decode w = .instr .tick := by
  simp [decode, h]

theorem decode_of_write (h : opField w = 0b01#2) :
    decode w = .instr (writeInstr (addressField w) (valueField w)) := by
  simp [decode, h]

theorem decode_of_read (h : opField w = 0b10#2) : decode w = .instr (.read (addressField w)) := by
  simp [decode, h]

theorem decode_of_reserved (h : opField w = 0b11#2) : decode w = .refused .reservedOp := by
  simp [decode, h]

/-- The `op` as a quotient of the word (R82). -/
theorem opField_eq_of_toNat {op : BitVec 2} (h : w.toNat / 2 ^ 24 = op.toNat) : opField w = op :=
  BitVec.eq_of_toNat_eq ((opField_toNat w).trans h)

/-! ### The canonical word of an operation (R82) -/

/-- The three WRITE rows have one form of word. -/
theorem encode_writeInstr (a : Addr) (v : Byte) : encode (writeInstr a v) = cmdWord 0b01#2 a v := by
  unfold writeInstr
  split_ifs with hborder hbackground
  · rw [hborder, encode]
  · rw [hbackground, encode]
  · rfl

theorem canonicalWord_of_tick (h : opField w = 0b00#2) : canonicalWord w = 0 := if_pos h

theorem canonicalWord_of_write (h : opField w = 0b01#2) :
    canonicalWord w = cmdWord 0b01#2 (addressField w) (valueField w) := by
  rw [← h, cmdWord_fields]
  simp [canonicalWord, h]

theorem canonicalWord_of_read (h : opField w = 0b10#2) :
    canonicalWord w = cmdWord 0b10#2 (addressField w) 0 := by
  simp [canonicalWord, h]

/-! ### The opcode table (R86) -/

theorem cmdWord_inj {op op' : BitVec 2} {a a' : Addr} {v v' : Byte} :
    cmdWord op a v = cmdWord op' a' v' ↔ op = op' ∧ a = a' ∧ v = v' := by
  refine ⟨fun h => ⟨?_, ?_, ?_⟩, fun ⟨hop, ha, hv⟩ => by rw [hop, ha, hv]⟩
  · rw [← opField_cmdWord op a v, h, opField_cmdWord]
  · rw [← addressField_cmdWord op a v, h, addressField_cmdWord]
  · rw [← valueField_cmdWord op a v, h, valueField_cmdWord]

/-- A word under a mask, field by field. -/
theorem and_cmdWord (w : Cmd) (op : BitVec 2) (a : Addr) (v : Byte) :
    w &&& cmdWord op a v = cmdWord (opField w &&& op) (addressField w &&& a) (valueField w &&& v) := by
  conv_lhs => rw [← cmdWord_fields w]
  unfold cmdWord
  rw [BitVec.and_append, BitVec.and_append]

/-- A row whose mask covers the `op` alone matches the words with its `op`. -/
theorem hits_opMask (name : String) (op : BitVec 2) (build : Cmd → Instr) (w : Cmd) :
    Row.hits ⟨name, cmdWord op 0#16 0#8, cmdWord 0b11#2 0#16 0#8, build⟩ w = decide (opField w = op) := by
  have hop : opField w &&& 0b11#2 = opField w := BitVec.and_allOnes
  rw [Row.hits, and_cmdWord, hop, Bool.eq_iff_iff]
  simp [cmdWord_inj]

/-- A row whose mask covers `op` and address matches the words with both of its own. -/
theorem hits_opAddressMask (name : String) (op : BitVec 2) (a : Addr) (build : Cmd → Instr) (w : Cmd) :
    Row.hits ⟨name, cmdWord op a 0#8, cmdWord 0b11#2 0xFFFF#16 0#8, build⟩ w =
      decide (opField w = op ∧ addressField w = a) := by
  have hop : opField w &&& 0b11#2 = opField w := BitVec.and_allOnes
  have ha : addressField w &&& 0xFFFF#16 = addressField w := BitVec.and_allOnes
  rw [Row.hits, and_cmdWord, hop, ha, Bool.eq_iff_iff]
  simp [cmdWord_inj]

/-- The rows with match and mask as words of the fields they compare. -/
theorem opcodeRows_eq : opcodeRows =
    [ ⟨"TICK", cmdWord 0b00#2 0#16 0#8, cmdWord 0b11#2 0#16 0#8, fun _ => .tick⟩,
      ⟨"WRITE_BORDER_COLOR", cmdWord 0b01#2 0xD020#16 0#8, cmdWord 0b11#2 0xFFFF#16 0#8,
        fun w => .writeBorderColor (valueField w)⟩,
      ⟨"WRITE_BACKGROUND_COLOR_0", cmdWord 0b01#2 0xD021#16 0#8, cmdWord 0b11#2 0xFFFF#16 0#8,
        fun w => .writeBackgroundColor0 (valueField w)⟩,
      ⟨"WRITE_UNSUPPORTED", cmdWord 0b01#2 0#16 0#8, cmdWord 0b11#2 0#16 0#8,
        fun w => .writeUnsupported (addressField w) (valueField w)⟩,
      ⟨"READ", cmdWord 0b10#2 0#16 0#8, cmdWord 0b11#2 0#16 0#8, fun w => .read (addressField w)⟩ ] := rfl

/-- Which rows match a word, in the table's order: by its `op`, and two of them by its address as well. -/
theorem opcodeRows_hits (w : Cmd) : (opcodeRows.map fun r => r.hits w) =
    [ decide (opField w = 0b00#2), decide (opField w = 0b01#2 ∧ addressField w = 0xD020#16),
      decide (opField w = 0b01#2 ∧ addressField w = 0xD021#16), decide (opField w = 0b01#2),
      decide (opField w = 0b10#2) ] := by
  simp only [opcodeRows_eq, List.map_cons, List.map_nil, hits_opMask, hits_opAddressMask]

/-- Taking the first row that matches is the chain of tests of R83. -/
theorem decode_eq_decodeByRows (w : Cmd) : decode w = decodeByRows w := by
  simp only [decodeByRows, opcodeRows_eq, List.find?_cons, hits_opMask, hits_opAddressMask]
  obtain h | h | h | h := op_cases (opField w)
  · simp [decode_of_tick h, h]
  · rw [decode_of_write h, writeInstr]
    split_ifs with hborder hbackground
    · simp [h, hborder]
    · simp [h, hbackground]
    · simp [h, hborder, hbackground]
  · simp [decode_of_read h, h]
  · simp [decode_of_reserved h, h]

/-- The mnemonic of an operation's row (R86). -/
def mnemonicOf : Instr → String
  | .tick => "TICK"
  | .writeBorderColor _ => "WRITE_BORDER_COLOR"
  | .writeBackgroundColor0 _ => "WRITE_BACKGROUND_COLOR_0"
  | .writeUnsupported _ _ => "WRITE_UNSUPPORTED"
  | .read _ => "READ"

/-- A matching row is the one the decoder takes, unless it is WRITE_UNSUPPORTED. -/
theorem decode_of_hits {r : Row} (hr : r ∈ opcodeRows) (h : r.hits w = true) :
    r.mnemonic = "WRITE_UNSUPPORTED" ∨ ∃ i, decode w = .instr i ∧ r.mnemonic = mnemonicOf i := by
  rw [opcodeRows_eq] at hr
  simp only [List.mem_cons, List.not_mem_nil, or_false] at hr
  obtain rfl | rfl | rfl | rfl | rfl := hr <;>
    simp only [hits_opMask, hits_opAddressMask, decide_eq_true_eq] at h
  · exact .inr ⟨_, decode_of_tick h, rfl⟩
  · exact .inr ⟨_, decode_of_write h.1, by rw [h.2]; rfl⟩
  · exact .inr ⟨_, decode_of_write h.1, by rw [h.2]; rfl⟩
  · exact .inl rfl
  · exact .inr ⟨_, decode_of_read h, rfl⟩

theorem decode_eq_refused_iff : decode w = .refused .reservedOp ↔ opField w = 0b11#2 := by
  refine ⟨fun h => ?_, decode_of_reserved⟩
  obtain hop | hop | hop | hop := op_cases (opField w)
  · cases (decode_of_tick hop).symm.trans h
  · cases (decode_of_write hop).symm.trans h
  · cases (decode_of_read hop).symm.trans h
  · exact hop

theorem decodeByRows_eq_refused_iff :
    decodeByRows w = .refused .reservedOp ↔ ∀ r ∈ opcodeRows, r.hits w = false := by
  unfold decodeByRows
  split
  · next r hr =>
    have hhits : r.hits w = true := List.find?_some (p := fun r : Row => r.hits w) hr
    exact ⟨nofun, fun hnone => absurd hhits (by simp [hnone r (List.mem_of_find?_eq_some hr)])⟩
  · next hnone => simpa using hnone

end

/-! ### The obligations -/

/-- Settles O2, by cases on the operation: each has the word of its form, and a well-formed WRITE_UNSUPPORTED is the row
its address selects. -/
theorem decodeOfEncode : Obligations.DecodeOfEncode := by
  intro i hwf
  cases i with
  | tick => exact decode_encode_tick
  | writeBorderColor v => exact decode_write borderColorAddr v
  | writeBackgroundColor0 v => exact decode_write backgroundColor0Addr v
  | writeUnsupported a v =>
    have ⟨hborder, hbackground⟩ : a ≠ borderColorAddr ∧ a ≠ backgroundColor0Addr := by
      simpa [Instr.wf] using hwf
    rw [encode, decode_write, writeInstr_of_ne hborder hbackground]
  | read a => exact decode_read a 0

/-- Settles O3, by the `op` of the word; the reserved one decodes to nothing. -/
theorem encodeOfDecode : Obligations.EncodeOfDecode := by
  intro w i h
  obtain hop | hop | hop | hop := op_cases (opField w)
  · obtain rfl := Decoded.instr.inj ((decode_of_tick hop).symm.trans h)
    rw [canonicalWord_of_tick hop]
    rfl
  · obtain rfl := Decoded.instr.inj ((decode_of_write hop).symm.trans h)
    rw [encode_writeInstr, canonicalWord_of_write hop]
  · obtain rfl := Decoded.instr.inj ((decode_of_read hop).symm.trans h)
    rw [encode, canonicalWord_of_read hop]
  · cases (decode_of_reserved hop).symm.trans h

/-- Settles O4: of two matching rows that are not WRITE_UNSUPPORTED the decoder takes both, and no row matches exactly
where the decoder refuses. -/
theorem decodeTakesFirstMatchingRow : Obligations.DecodeTakesFirstMatchingRow := by
  refine ⟨rfl, decode_eq_decodeByRows, fun w r hr r' hr' h h' => ?_, fun w => ?_⟩
  · obtain hr | ⟨i, hi, hr⟩ := decode_of_hits hr h
    · exact .inr (.inl hr)
    obtain hr' | ⟨i', hi', hr'⟩ := decode_of_hits hr' h'
    · exact .inr (.inr hr')
    · obtain rfl := Decoded.instr.inj (hi.symm.trans hi')
      exact .inl (hr.trans hr'.symm)
  · rw [← decodeByRows_eq_refused_iff, ← decode_eq_decodeByRows, decode_eq_refused_iff]

/-- Settles O5: the fields are quotients and remainders of the word, and its quotient by `2 ^ 24` is the `op` that each
clause names. -/
theorem decodeReadsTheFields : Obligations.DecodeReadsTheFields := fun w =>
  ⟨opField_toNat w, addressField_toNat w, valueField_toNat w,
    fun h => decode_of_tick (opField_eq_of_toNat h), fun h => decode_of_write (opField_eq_of_toNat h),
    fun h => decode_of_read (opField_eq_of_toNat h), fun h => decode_of_reserved (opField_eq_of_toNat h)⟩

/-- Settles O1: each of the ten words is decoded. -/
theorem decodesSpecWords : Obligations.DecodesSpecWords := by
  unfold Obligations.DecodesSpecWords
  decide

/-- Settles O12: the quotient of the word is the reserved `op`, which the decoder refuses. -/
theorem stepRefusesReservedWord : Obligations.StepRefusesReservedWord := by
  intro s w rest hp hw
  have hrefused := decode_of_reserved (opField_eq_of_toNat hw)
  calc step s = runCommand w { s with pending := rest } := step_pending hp
    _ = .refused (.reservedCommand w) := by simp [runCommand, hrefused]

end Sys2Proof.Machine

/-! The form of the memories and the loading of programs (20_memory.md section 1; 30_encoding.md section 8): every step
keeps the canonical form, which is determined by the answers, and a loaded program starts from the reset block. -/

namespace Sys2Proof.Machine

/-! ### A memory in canonical form is determined by its answers (R50) -/

/-- The listed cells are the addresses that answer, with their bytes. -/
theorem Memory.mem_iff_read {m : Memory} (h : m.wf) (p : Host.Cell) :
    p ∈ m ↔ p.1 < 2 ^ 16 ∧ m.read (BitVec.ofNat 16 p.1) = some p.2 := by
  refine ⟨fun hp => ?_, fun ⟨hlt, hread⟩ => ?_⟩
  · have hlt := h.2 p hp
    exact ⟨hlt, Memory.read_of_mem h (by rwa [BitVec.toNat_ofNat, Nat.mod_eq_of_lt hlt])⟩
  · have hp := Memory.exists_mem_of_read hread
    rwa [BitVec.toNat_ofNat, Nat.mod_eq_of_lt hlt] at hp

/-! ### Loading a program (R91) -/

/-- What loading keeps: the block as it was, the memories in canonical form. -/
def State.Loading (block : Block) (s : State) : Prop := s.block = block ∧ s.MemoryWf

theorem State.Loading.push {block : Block} {s : State} (h : s.Loading block) (events : List Event) :
    (s.push events).Loading block := h

theorem State.MemoryWf.memory {s : State} (h : s.MemoryWf) (space : Space) : (s.memory space).wf := by
  cases space with
  | graphics => exact h.1
  | color => exact h.2

theorem State.MemoryWf.setMemory {s : State} (h : s.MemoryWf) {space : Space} {m : Memory} (hm : m.wf) :
    (s.setMemory space m).MemoryWf := by
  cases space with
  | graphics => exact ⟨hm, h.2⟩
  | color => exact ⟨h.1, hm⟩

theorem State.Loading.insert {block : Block} {s : State} (h : s.Loading block) (space : Space) (a : Addr) (v : Byte) :
    (s.setMemory space ((s.memory space).insert a v)).Loading block :=
  ⟨(s.setMemory_block _ _).trans h.1, h.2.setMemory (Memory.wf_insert (h.2.memory space) a v)⟩

theorem State.Loading.erase {block : Block} {s : State} (h : s.Loading block) (space : Space) (a : Addr) :
    (s.setMemory space ((s.memory space).erase a)).Loading block :=
  ⟨(s.setMemory_block _ _).trans h.1, h.2.setMemory (Memory.wf_erase (h.2.memory space) a)⟩

/-- A line queues events, or sets up a byte of a memory. -/
theorem loadLines_loading {block : Block} {lines : List Line} {started : Bool} {failed : List Access} {s t : State}
    (h : loadLines lines started failed s = some t) (hs : s.Loading block) : t.Loading block := by
  induction lines generalizing started failed s with
  | nil =>
    obtain rfl := Option.some.inj h
    exact hs
  | cons line rest ih =>
    cases line with
    | tick n =>
      rw [loadLines] at h
      split_ifs at h
      exact ih h (hs.push _)
    | write a v => exact ih h (hs.push _)
    | read a => exact ih h (hs.push _)
    | reset => exact ih h (hs.push _)
    | setByte space a v =>
      rw [loadLines] at h
      split_ifs at h
      · exact ih h (hs.push _)
      · exact ih h (hs.insert space a v)
    | setFail space a =>
      rw [loadLines] at h
      split_ifs at h
      exact ih h (hs.erase space a)

/-! ### The obligations -/

/-- Settles O49: no operation writes a memory, and a memory change keeps the form. -/
theorem stepKeepsMemoryCanonical : Obligations.StepKeepsMemoryCanonical :=
  fun _ _ hs h => State.kept_memoryWf.step h hs

/-- Settles O54: both list the same cells, in the one order their addresses have. -/
theorem canonicalMemoriesEqual : Obligations.CanonicalMemoriesEqual := by
  intro m m' h h' hread
  have : Std.Irrefl fun p q : Host.Cell => p.1 < q.1 := ⟨fun p => Nat.lt_irrefl p.1⟩
  have : Std.Antisymm fun p q : Host.Cell => p.1 < q.1 := ⟨fun p q hpq hqp => absurd hpq (Nat.lt_asymm hqp)⟩
  exact h.1.eq_of_mem_iff h'.1 fun p => by rw [Memory.mem_iff_read h, Memory.mem_iff_read h', hread]

/-- Settles O55: no line of the program touches the block, and every memory line keeps the form. -/
theorem loadedProgramMeetsInvariant : Obligations.LoadedProgramMeetsInvariant := by
  intro g c lines s hg hc h
  obtain ⟨hblock, hmemory⟩ := loadLines_loading h (block := Block.reset) ⟨rfl, hg, hc⟩
  refine ⟨⟨?_, ?_, ?_, hmemory⟩, hblock⟩
  · exact hblock ▸ Block.legal_reset
  · exact hblock ▸ Block.pixelLegal_reset
  · exact hblock ▸ Block.lockStep_reset

end Sys2Proof.Machine

/-! Errors and the pixel output register (60_exceptions.md sections 3 and 4; 43_pixel_output_and_geometry.md section 1):
what an operation that raises an error leaves, and what a TICK loads. -/

namespace Sys2Proof.Machine

open Sys2Proof

/-- An operation other than TICK that answers an error leaves the block (R185): a WRITE without a register, a READ. -/
theorem exec_block_of_error {i : Instr} {s t : State} {e : Error} (hi : i ≠ .tick) (h : exec i s = .next t)
    (he : t.responses = [.error e]) : t.block = s.block := by
  obtain rfl | ⟨a, v, hw⟩ | ⟨a, rfl, -⟩ := exec_cases i s
  · exact absurd rfl hi
  · obtain rfl := Host.Outcome.next.inj (hw.symm.trans h)
    cases hsupported : supportedRegister a with
    | true => simp [State.writeRegister_responses_of_supported hsupported] at he
    | false => rw [State.writeRegister_block, Block.storeRegister_unsupported hsupported]
  · exact exec_read_block h

/-- A TICK that answers an error is one whose colour result is a failed read (R106). -/
theorem exec_tick_failed_of_error {s t : State} {e : Error} (h : exec .tick s = .next t) (he : t.responses = [.error e]) :
    s.block.Legal ∧ ∃ addr reads, tickColor s.block s.g s.c = .failed addr reads ∧
      t = { s with block := s.block.dropPixel, responses := [.error (.readError addr)], reads := reads } := by
  obtain ⟨hl, rfl⟩ := exec_tick_next.1 h
  refine ⟨hl, ?_⟩
  cases hcolor : tickColor s.block s.g s.c with
  | value v reads => simp [hcolor, State.tickWith] at he
  | failed addr reads => exact ⟨addr, reads, rfl, rfl⟩

/-- The colour of a TICK does not look at the pixel output register. -/
theorem tickColor_dropPixel (b : Block) (g c : Memory) : tickColor b.dropPixel g c = tickColor b g c := rfl

/-! ### The obligations -/

/-- Settles O34: a TICK commits the pixel it returns or drops the pixel, and WRITE and READ change the colour registers
only. -/
theorem pixelRegisterFollowsTick : Obligations.PixelRegisterFollowsTick := by
  refine fun i s t h => ⟨fun hi => ?_, ?_, ?_⟩
  · obtain ⟨border, background, hb⟩ := exec_block_of_ne_tick hi h
    rw [hb]
    exact ⟨rfl, rfl, rfl, rfl⟩
  · rintro x line color rfl hresponse
    obtain ⟨-, ⟨color', reads, rfl⟩ | ⟨-, a, reads, rfl⟩⟩ := exec_tick_cases h
    · simp only [List.cons.injEq, Response.pixel.injEq, and_true] at hresponse
      obtain ⟨rfl, rfl, rfl⟩ := hresponse
      exact ⟨rfl, rfl, rfl, rfl, rfl, rfl⟩
    · simp at hresponse
  · rintro a rfl hresponse
    obtain ⟨-, addr, reads, -, rfl⟩ := exec_tick_failed_of_error h hresponse
    exact ⟨rfl, rfl, rfl, rfl⟩

/-- Settles O43: a failed TICK drops the pixel, and no other operation that answers an error touches the block. -/
theorem errorsCommitNothing : Obligations.ErrorsCommitNothing := by
  intro i s t e h he
  split_ifs with hi
  · subst hi
    obtain ⟨-, addr, reads, -, rfl⟩ := exec_tick_failed_of_error h he
    rfl
  · exact exec_block_of_error hi h he

/-- Settles O44: dropping the pixel leaves the colour result, so the same read fails again, and dropping it twice is
dropping it once. -/
theorem repeatedFailedTickFailsAgain : Obligations.RepeatedFailedTickFailsAgain := by
  intro s t a h hresponse
  obtain ⟨hl, addr, reads, hfailed, rfl⟩ := exec_tick_failed_of_error h hresponse
  exact exec_tick_of_failed (s := { s with
    block := s.block.dropPixel, responses := [.error (.readError addr)], reads := reads }) hl
    ((tickColor_dropPixel _ _ _).trans hfailed)

/-- Settles O35: a TICK tests the legal ranges before anything else (U5). -/
theorem tickRefusedOutsideLegalRanges : Obligations.TickRefusedOutsideLegalRanges :=
  fun _ hl => if_neg hl

end Sys2Proof.Machine

/-! The clocked reading (30_encoding.md section 9): a cycle as a sequence of operations, and its combinational outputs
as what those operations read and answer. -/

namespace Sys2Proof.Machine

open Sys2Proof

/-! ### A cycle by its strobes (R93) -/

theorem clockCycle_of_rst {p : PortIn} (h : p.rst = true) (s : State) : clockCycle p s = .next s.applyReset :=
  if_pos h

theorem clockCycle_of_write_read {p : PortIn} (hrst : p.rst = false) (hwe : p.regWe = true) (hre : p.regRe = true)
    (s : State) : clockCycle p s = .refused .writeWithRead := by
  simp [clockCycle, hrst, hwe, hre]

/-- A cycle that is neither a reset nor refused is its TICK phase, then its register phase. -/
theorem clockCycle_of_tickPhase {p : PortIn} {s u : State} (hrst : p.rst = false)
    (hreg : p.regWe = false ∨ p.regRe = false) (hu : tickPhase p s = .next u) :
    clockCycle p s = registerPhase p u := by
  have hallowed : (p.regWe && p.regRe) = false := (Bool.and_eq_false_iff).2 hreg
  simp [clockCycle, hrst, hallowed, hu]

theorem tickPhase_eq_next {p : PortIn} {s u : State} (hen : p.tickEn = true → exec .tick s = .next u)
    (hidle : p.tickEn = false → u = s.quiet) : tickPhase p s = .next u := by
  cases h : p.tickEn with
  | true => simp [tickPhase, h, hen h]
  | false => simp [tickPhase, h, hidle h]

section
variable {p : PortIn} {u v : State}

theorem registerPhase_of_write (hwe : p.regWe = true) (hv : exec (writeInstr p.regAddr p.regWdata) u = .next v) :
    registerPhase p u =
      .next { v with responses := u.responses ++ v.responses, reads := u.reads ++ v.reads } := by
  simp [registerPhase, hwe, hv, afterPhase]

theorem registerPhase_of_read (hwe : p.regWe = false) (hre : p.regRe = true)
    (hv : exec (.read p.regAddr) u = .next v) :
    registerPhase p u =
      .next { v with responses := u.responses ++ v.responses, reads := u.reads ++ v.reads } := by
  simp [registerPhase, hwe, hre, hv, afterPhase]

theorem registerPhase_of_none (hwe : p.regWe = false) (hre : p.regRe = false) : registerPhase p u = .next u := by
  simp [registerPhase, hwe, hre]

end

/-! ### The memory ports (R94) -/

/-- The reads that the enabled memory ports show, in the order of the ports. -/
def PortOut.accesses (o : PortOut) : List Access :=
  (o.cm.toList.map fun a => ⟨.graphics, a⟩) ++ (o.bm.toList.map fun a => ⟨.graphics, a⟩)
    ++ (o.col.toList.map fun a => ⟨.color, a⟩)

/-- The address of the read that failed, if one did (R183). -/
def ReadResult.failure {α : Type} : ReadResult α → Option Addr
  | .value _ _ => none
  | .failed a _ => some a

@[simp] theorem ReadResult.failure_value {α : Type} (v : α) (reads : List Access) :
    (ReadResult.value v reads).failure = none := rfl

@[simp] theorem ReadResult.failure_failed {α : Type} (a : Addr) (reads : List Access) :
    (ReadResult.failed a reads : ReadResult α).failure = some a := rfl

/-- The response of a TICK is a `ReadError` exactly where its colour result is a failure. -/
theorem State.tickWith_responses_eq_readError_iff (s : State) (r : ReadResult (Byte × Cursor)) (a : Addr) :
    (s.tickWith r).responses = [.error (.readError a)] ↔ r.failure = some a := by
  cases r with
  | value v reads => simp [State.tickWith]
  | failed addr reads => simp [State.tickWith]

/-- While `rst` is 0 the outputs are those of R92 and R94. -/
theorem portOut_of_running {p : PortIn} (hrst : p.rst = false) (s : State) :
    portOut p s =
      { regErr := regErr p
        cm := cmPort p s.block
        bm := bmPort p s.block s.g
        col := colPort p s.block s.g
        tickErr :=
          ((portFail s.g (cmPort p s.block)).or (portFail s.g (bmPort p s.block s.g))).or
            (portFail s.c (colPort p s.block s.g)) } := by
  simp [portOut, hrst]

theorem cmPort_of_disabled {p : PortIn} (hen : p.tickEn = false) (b : Block) : cmPort p b = none := by
  simp [cmPort, hen]

section
variable {p : PortIn} {b : Block} {g c : Memory}

theorem cmPort_outside (hw : b.inWindow = false) : cmPort p b = none := by
  simp [cmPort, hw]

theorem cmPort_inside (hen : p.tickEn = true) (hw : b.inWindow = true) : cmPort p b = some b.cursor.matrixAddr := by
  simp [cmPort, hen, hw]

theorem bmPort_of_cmPort_none (h : cmPort p b = none) : bmPort p b g = none := by
  simp [bmPort, h]

theorem bmPort_of_cmPort_some {a : Addr} (h : cmPort p b = some a) :
    bmPort p b g = (g.read a).map b.cursor.bitmapAddr := by
  simp [bmPort, h]

theorem colPort_of_bmPort_none (h : bmPort p b g = none) : colPort p b g = none := by
  simp [colPort, h]

theorem colPort_of_bitmap_failed {a : Addr} (h : bmPort p b g = some a) (hread : g.read a = none) :
    colPort p b g = none := by
  simp [colPort, h, hread]

theorem colPort_background {a : Addr} {row : Byte} (h : bmPort p b g = some a) (hread : g.read a = some row)
    (hbit : isForeground row b.cursor.pixelMask = false) : colPort p b g = none := by
  simp [colPort, h, hread, hbit]

theorem colPort_foreground {a : Addr} {row : Byte} (h : bmPort p b g = some a) (hread : g.read a = some row)
    (hbit : isForeground row b.cursor.pixelMask = true) : colPort p b g = some b.cursor.colorAddr := by
  simp [colPort, h, hread, hbit]

@[simp] theorem portFail_none (m : Memory) : portFail m none = none := rfl

theorem portFail_of_read_some {m : Memory} {a : Addr} {v : Byte} (h : m.read a = some v) :
    portFail m (some a) = none := by
  simp [portFail, Memory.supports, h]

theorem portFail_of_read_none {m : Memory} {a : Addr} (h : m.read a = none) : portFail m (some a) = some a := by
  simp [portFail, Memory.supports, h]

/-- The ports raised in a cycle with a TICK are the reads of its colour result, and the port that fails is its failed
read (R94, R183). -/
theorem portOut_matches_tickColor {s : State} (hrst : p.rst = false) (hen : p.tickEn = true) :
    (portOut p s).accesses = (tickColor s.block s.g s.c).log ∧
      (portOut p s).tickErr = (tickColor s.block s.g s.c).failure := by
  rw [portOut_of_running hrst]
  cases hw : s.block.inWindow with
  | false =>
    have hcm := cmPort_outside (p := p) hw
    have hbm := bmPort_of_cmPort_none (g := s.g) hcm
    have hcol := colPort_of_bmPort_none hbm
    simp [tickColor_outside hw, PortOut.accesses, hcm, hbm, hcol]
  | true =>
    have hcm := cmPort_inside hen hw
    have hbm := bmPort_of_cmPort_some (g := s.g) hcm
    rw [tickColor_inside hw]
    obtain h1 | ⟨i, h1, h2⟩ | ⟨i, row, h1, h2, h3⟩ | ⟨i, row, h1, h2, h3, h4⟩ | ⟨i, row, v, h1, h2, h3, h4⟩ :=
      resolve_cases s.block s.g s.c <;> rw [h1] at hbm
    · have hcol := colPort_of_bmPort_none hbm
      simp [resolve_matrix_failed h1, PortOut.accesses, hcm, hbm, hcol, portFail_of_read_none h1]
    · have hcol := colPort_of_bitmap_failed hbm h2
      simp [resolve_bitmap_failed h1 h2, PortOut.accesses, hcm, hbm, hcol, portFail_of_read_some h1,
        portFail_of_read_none h2]
    · have hcol := colPort_background hbm h2 h3
      simp [resolve_background h1 h2 h3, PortOut.accesses, hcm, hbm, hcol, portFail_of_read_some h1,
        portFail_of_read_some h2]
    · have hcol := colPort_foreground hbm h2 h3
      simp [resolve_color_failed h1 h2 h3 h4, PortOut.accesses, hcm, hbm, hcol, portFail_of_read_some h1,
        portFail_of_read_some h2, portFail_of_read_none h4]
    · have hcol := colPort_foreground hbm h2 h3
      simp [resolve_foreground h1 h2 h3 h4, PortOut.accesses, hcm, hbm, hcol, portFail_of_read_some h1,
        portFail_of_read_some h2, portFail_of_read_some h4]

end

theorem regErr_of_write {p : PortIn} (hwe : p.regWe = true) (hre : p.regRe = false) :
    regErr p = true ↔ p.regAddr ≠ 0xD020#16 ∧ p.regAddr ≠ 0xD021#16 := by
  simp [regErr, hwe, hre, supportedRegister]

theorem regErr_of_read {p : PortIn} (hre : p.regRe = true) : regErr p = true := by
  simp [regErr, hre]

theorem regErr_of_none {p : PortIn} (hwe : p.regWe = false) (hre : p.regRe = false) : regErr p = false := by
  simp [regErr, hwe, hre]

/-! ### The obligations -/

/-- Settles O59, by the strobes: the event is taken off, and the cycle is a reset, refused, or its two phases. -/
theorem clockCycleIsAShortSequence : Obligations.ClockCycleIsAShortSequence := by
  intro s p rest hp s0
  have hstep : step s = clockCycle p s0 := step_pending hp
  refine ⟨fun hrst => hstep.trans (clockCycle_of_rst hrst s0),
    fun hrst hwe hre => hstep.trans (clockCycle_of_write_read hrst hwe hre s0), fun hrst u hen hidle => ?_⟩
  have htick : tickPhase p s0 = .next u := tickPhase_eq_next hen hidle
  refine ⟨fun v hwe hre hv => ?_, fun v hwe hre hv => ?_, fun hwe hre => ?_⟩
  · rw [hstep, clockCycle_of_tickPhase hrst (.inr hre) htick, registerPhase_of_write hwe hv]
  · rw [hstep, clockCycle_of_tickPhase hrst (.inl hwe) htick, registerPhase_of_read hwe hre hv]
  · rw [hstep, clockCycle_of_tickPhase hrst (.inl hwe) htick, registerPhase_of_none hwe hre]

/-- Settles O60: the ports are the reads and the failure of the TICK's colour result, none is raised without a TICK, and
`reg_err` is set by a READ and by a WRITE without a register. -/
theorem clockOutputsMatchOperations : Obligations.ClockOutputsMatchOperations := by
  refine ⟨fun p s t hrst hen h => ?_, fun p s hrst hen => ?_, fun p s hrst => ?_⟩
  · obtain ⟨-, rfl⟩ := exec_tick_next.1 h
    obtain ⟨haccesses, hfailure⟩ := portOut_matches_tickColor (s := s) hrst hen
    refine ⟨?_, fun a => ?_⟩
    · rw [State.tickWith_reads, ← haccesses]
      rfl
    · rw [hfailure, State.tickWith_responses_eq_readError_iff]
  · have hcm := cmPort_of_disabled hen s.block
    have hbm := bmPort_of_cmPort_none (g := s.g) hcm
    have hcol := colPort_of_bmPort_none hbm
    rw [portOut_of_running hrst]
    simp [hcm, hbm, hcol]
  · rw [portOut_of_running hrst]
    exact ⟨regErr_of_write, regErr_of_read, regErr_of_none⟩

end Sys2Proof.Machine
